-- ==== Sys2Proof/Word.lean ====
section
/-! DEFINITION. The words and the memories of the block. -/

namespace Sys2Proof

/-- A word of the command channel: command word, payload word or response (R50, R55). -/
abbrev Word := BitVec 32

/-- A byte of DPB or OUT: eight device pixels, one per bit (R52, R53). -/
abbrev Byte := BitVec 8

/-- A source sample: 0 is white, 3 is black (R6, R22). -/
abbrev Gray := BitVec 2

/-- A memory as plain data: the places whose content is specified, each with its content, in rising order.
A place that is not listed holds an unspecified value (log 4). -/
abbrev Memory (α : Type) := List (Nat × α)

end Sys2Proof
end

