-- ==== Sys2Proof/Config.lean ====
section
/-! DEFINITION. What is fixed for one block: the fixed geometry (R6), the three open parameters (R8), and the free
values the environment or the unspecified RAM contents supply. Every `opaque` constant here has no body: nothing can be
proved about its value, so a claim holds whatever it is. -/

namespace Sys2Proof

/-- SRC_W: source columns (R6). -/
@[simp] abbrev srcW : Nat := 160

/-- SRC_H: source rows (R6). -/
@[simp] abbrev srcH : Nat := 144

/-- HSCALE: destination columns per source column (R6). -/
@[simp] abbrev hScale : Nat := 2

/-- HMARGIN: device pixels on each side of the image (R6). -/
@[simp] abbrev hMargin : Nat := 40

/-- DEV_ROW_PX: device pixels per device row (R6). -/
@[simp] abbrev devRowPx : Nat := 400

/-- VIS_W: destination columns of the image (R6). -/
@[simp] abbrev visW : Nat := 320

/-- VIS_H: extent of the destination row positions (R6). -/
@[simp] abbrev visH : Nat := 240

/-- BIT_ORDER: which bit of a device byte holds the lowest-numbered device column (R8, R54). -/
inductive BitOrder where
  | msbFirst
  | lsbFirst
  deriving DecidableEq, Repr, Inhabited

/-- The open parameters of the compose pass, its argument (R8). The third open parameter, MAX_BUF_BYTES, is the argument
of the geometry check. -/
structure Params where
  /-- BIT_ORDER. -/
  bitOrder : BitOrder
  /-- DITHER_PHASE. -/
  ditherPhase : BitVec 1
  deriving DecidableEq, Repr

/-- The BIT_ORDER of the block: open (R8; log 9). -/
opaque Config.bitOrder : BitOrder

/-- The DITHER_PHASE of the block: open (R8; log 9). -/
opaque Config.ditherPhase : BitVec 1

/-- The MAX_BUF_BYTES of the block, the capacity of the device pixel buffer RAM: open (R8; log 9). -/
opaque Config.maxBufBytes : Nat

/-- The compose parameters of the block, both open. -/
def Config.params : Params := ⟨Config.bitOrder, Config.ditherPhase⟩

/-- The unspecified content of a PLANE cell, by reset number and cell (R22, R241; log 4). -/
opaque Config.planeUnspecified : Nat → Nat → Gray

/-- The unspecified content of a DPB byte, by reset number and address (R26, R241; log 4). -/
opaque Config.dpbUnspecified : Nat → Nat → Byte

/-- What OUT holds where the block has never written it: the environment's (R53; log 5). -/
opaque Config.outInitial : Nat → Byte

/-- `draw flush_ok : Bool`: the environment's answer to a flush it has not answered in advance, by the number of the
flush (R180; log 6). -/
opaque Config.flushOk : Nat → Bool

/-- `draw junk_a : Byte`: what a failed flush leaves in an OUT byte, by the number of the flush and the address
(R180, R181; log 7). -/
opaque Config.junk : Nat → Nat → Byte

/-- Whether a racing write of another agent is the one that stays, by the number of the flush and of the write
(R247; log 8). -/
opaque Config.rivalWins : Nat → Nat → Bool

end Sys2Proof
end

