-- ==== Sys2Proof/Syntax.lean ====
section
/-! DEFINITION. The commands of the block: one constructor per row of the opcode map (R77). -/

namespace Sys2Proof

/-- A command with its operands pulled out of the command word and the payload (R72 to R76). -/
inductive Instr where
  /-- NOP (R190). -/
  | nop
  /-- CONFIG: stride S, row-pair delta D, buffer size, fill byte (R192, R75). -/
  | config (s d size : Word) (fill : Byte)
  /-- WRITE_SCANLINE: source row and the ten payload words of packed samples (R100, R73, R76). -/
  | writeScanline (row : BitVec 8) (payload : List Word)
  /-- FRAME_COMPLETE: skip directive K and skip count N (R120, R74). -/
  | frameComplete (k : Bool) (n : BitVec 8)
  /-- READ_STATUS (R191). -/
  | readStatus
  /-- CLEAR_ERRORS (R194). -/
  | clearErrors
  /-- RESET (R195). -/
  | reset
  deriving DecidableEq, Repr

end Sys2Proof
end

