-- ==== Sys2Proof/Machine/State.lean ====
section
/-! DEFINITION. The state of the block (10_state.md), with its channel and its environment's inputs, the error
conditions, the reasons a step can stop, and the state after reset. -/

namespace Sys2Proof.Machine

/-- LAST_OUTCOME: the verdict of the last executed FRAME_COMPLETE; the encoding 3 has no constructor (R29; log 14). -/
inductive LastOutcome where
  | none
  | dropped
  | composited
  deriving DecidableEq, Repr

/-- The error conditions of the block (R210). They are not stops: raising one gives a next state. -/
inductive ErrorCond where
  | malformedScanline
  | incompleteFrame
  | illegalCommand
  | sequenceError
  | configMismatch
  | outputWriteFailure
  deriving DecidableEq, Repr

/-- The two verdicts of the Frame Gate (R121). -/
inductive Verdict where
  | compositeNow
  | drop
  deriving DecidableEq, Repr

/-- Why the machine stops. -/
inductive Fault where
  /-- Raised by FRAME_COMPLETE's compose pass where it would form a DPB address at or above CFG_BUF_SIZE.
  Safe: R52 says the block never forms one, and no state that meets the invariant does (log 10). -/
  | dpbAddressOutOfRange
  deriving DecidableEq, Repr

/-- Why an instruction has no meaning. -/
inductive Refusal where
  /-- Raised by `exec` for an instruction not modelled yet. Safe. No instruction is in that case. -/
  | notModelled (mnemonic : String)
  deriving DecidableEq, Repr

/-- Everything the spec gives the block, its command channel, the surface OUT it writes, and what the environment
has prepared. INVENTORY.md lists the rule and the reset value of each field. -/
structure State where
  /-- PLANE, by cell number `160*y + x` (R22; log 12). -/
  plane : Memory Gray
  /-- ROW_VALID (R23). -/
  rowValid : BitVec 144
  /-- SKIP_CTR (R25). -/
  skipCtr : BitVec 8
  /-- DPB, by byte address (R26). -/
  dpb : Memory Byte
  /-- CFG_S (R27). -/
  cfgS : Word
  /-- CFG_D (R27). -/
  cfgD : Word
  /-- CFG_BUF_SIZE (R27). -/
  cfgBufSize : Word
  /-- CFG_FILL (R27). -/
  cfgFill : Byte
  /-- CFG_VALID, STATUS[0] (R27, R28). -/
  cfgValid : Bool
  /-- HALTED, STATUS[1] (R31). -/
  halted : Bool
  /-- LAST_OUTCOME, STATUS[3:2] (R29). -/
  lastOutcome : LastOutcome
  /-- ERR_MALFORMED, STATUS[4] (R28). -/
  errMalformed : Bool
  /-- ERR_INCOMPLETE, STATUS[5] (R28). -/
  errIncomplete : Bool
  /-- ERR_ILLEGAL, STATUS[6] (R28). -/
  errIllegal : Bool
  /-- ERR_SEQ, STATUS[7] (R28). -/
  errSeq : Bool
  /-- ERR_CONFIG, STATUS[8] (R28). -/
  errConfig : Bool
  /-- ERR_FLUSH, STATUS[9] (R28). -/
  errFlush : Bool
  /-- OUT, the external output surface, by byte address (R53; log 5). -/
  out : Memory Byte
  /-- The words the host has sent and the block has not consumed, oldest first (R50, R81; log 1). -/
  inbox : List Word
  /-- The responses the host has not taken, oldest first (R82; log 3). -/
  outbox : List Word
  /-- The environment's answers to the coming flushes, next first (R180, R230; log 6). -/
  flushAnswers : List Bool
  /-- The writes another agent makes to OUT while the next flush runs, in their order (R247; log 8). -/
  rivals : List Host.Cell
  /-- The model's own: how many resets have run, the index of the unspecified RAM contents (log 4). -/
  ramEpoch : Nat
  /-- The model's own: how many flushes have run, the index of the environment's draws (log 6, 7, 8). -/
  draws : Nat
  deriving DecidableEq, Repr

/-- The machine right after reset (R35): STATUS 0, unconfigured, PLANE and DPB unspecified, nothing on the channel. -/
def State.reset : State where
  plane := []
  rowValid := 0
  skipCtr := 0
  dpb := []
  cfgS := 0
  cfgD := 0
  cfgBufSize := 0
  cfgFill := 0
  cfgValid := false
  halted := false
  lastOutcome := .none
  errMalformed := false
  errIncomplete := false
  errIllegal := false
  errSeq := false
  errConfig := false
  errFlush := false
  out := []
  inbox := []
  outbox := []
  flushAnswers := []
  rivals := []
  ramEpoch := 0
  draws := 0

end Sys2Proof.Machine
end

