-- ==== Sys2Proof/Machine/Flags.lean ====
section
/-! DEFINITION. STATUS and what is computed from the flags: it is a view of the state, stored nowhere else (R28; log 14). -/

namespace Sys2Proof.Machine

/-- ROWS_VALID: popcount(ROW_VALID), 0 to 144 (R23, R28). -/
def rowsValid (s : State) : Nat := (List.range srcH).countP fun y => s.rowValid.getLsbD y

/-- The two bits of LAST_OUTCOME (R29). -/
def LastOutcome.bits : LastOutcome → BitVec 2
  | .none => 0
  | .dropped => 1
  | .composited => 2

/-- A field of STATUS at its lowest bit. -/
def field {w : Nat} (v : BitVec w) (low : Nat) : Word := v.setWidth 32 <<< low

/-- STATUS, each field at its lowest bit; bits [15:10] are reserved and 0 (R28). -/
def status (s : State) : Word :=
  field (BitVec.ofBool s.cfgValid) 0
    ||| field (BitVec.ofBool s.halted) 1
    ||| field s.lastOutcome.bits 2
    ||| field (BitVec.ofBool s.errMalformed) 4
    ||| field (BitVec.ofBool s.errIncomplete) 5
    ||| field (BitVec.ofBool s.errIllegal) 6
    ||| field (BitVec.ofBool s.errSeq) 7
    ||| field (BitVec.ofBool s.errConfig) 8
    ||| field (BitVec.ofBool s.errFlush) 9
    ||| field s.skipCtr 16
    ||| field (BitVec.ofNat 8 (rowsValid s)) 24

/-- An error condition's cause code: its bit index in STATUS (R210). -/
def ErrorCond.code : ErrorCond → Nat
  | .malformedScanline => 4
  | .incompleteFrame => 5
  | .illegalCommand => 6
  | .sequenceError => 7
  | .configMismatch => 8
  | .outputWriteFailure => 9

/-- The fatal conditions (R30, R210). -/
def ErrorCond.fatal : ErrorCond → Bool
  | .malformedScanline => false
  | .incompleteFrame => false
  | .illegalCommand => false
  | .sequenceError => false
  | .configMismatch => true
  | .outputWriteFailure => true

/-- The flag of an error condition (R210). -/
def ErrorCond.flag (s : State) : ErrorCond → Bool
  | .malformedScanline => s.errMalformed
  | .incompleteFrame => s.errIncomplete
  | .illegalCommand => s.errIllegal
  | .sequenceError => s.errSeq
  | .configMismatch => s.errConfig
  | .outputWriteFailure => s.errFlush

/-- The frame state the source names, a function of ROW_VALID between commands (R24, R124). -/
inductive FrameState where
  /-- Fewer than 144 rows written. -/
  | accumulating
  /-- All 144 rows written and no FRAME_COMPLETE executed yet. -/
  | accumulated
  deriving DecidableEq, Repr

/-- The frame state of a state (R24). -/
def frameState (s : State) : FrameState := if rowsValid s < srcH then .accumulating else .accumulated

/-- The three states that decide which commands are accepted (R196). -/
inductive BlockState where
  | unconfigured
  | configured
  | halted
  deriving DecidableEq, Repr

/-- The block state of a state (R196). -/
def blockState (s : State) : BlockState :=
  if s.halted then .halted else if s.cfgValid then .configured else .unconfigured

/-- The table of R196: whether a legal command is executed (true) or refused (false). -/
def accepts : Instr → BlockState → Bool
  | .nop, _ => true
  | .readStatus, _ => true
  | .clearErrors, _ => true
  | .reset, _ => true
  | .config _ _ _ _, b => b == .unconfigured
  | .writeScanline _ _, b => b == .configured
  | .frameComplete _ _, b => b == .configured

end Sys2Proof.Machine
end

