-- ==== Sys2Proof/Machine/Ops.lean ====
section
/-! DEFINITION. The named operations over memories and registers: the canonical memory, raising an error condition,
responding, refusing, and the reset sequence. -/

namespace Sys2Proof

/-- The canonical form of a memory: places strictly rising. An unlisted place holds no known value, so no entry
repeats one (log 4). -/
abbrev Memory.wf {α : Type} (m : Memory α) : Prop := m.Pairwise fun c d => c.1 < d.1

/-- The content of a place, none where it is unspecified. -/
def Memory.read? {α : Type} : Memory α → Nat → Option α
  | [], _ => none
  | (b, v) :: m, a => if b = a then some v else Memory.read? m a

/-- Write one place. -/
def Memory.write {α : Type} : Memory α → Nat → α → Memory α
  | [], a, v => [(a, v)]
  | (b, w) :: m, a, v =>
    if a < b then (a, v) :: (b, w) :: m
    else if a = b then (a, v) :: m
    else (b, w) :: Memory.write m a v

/-- Write the `n` places from `base` on, place `base + i` with `f i`, at once. -/
def Memory.writeRange {α : Type} (m : Memory α) (base n : Nat) (f : Nat → α) : Memory α :=
  m.filter (fun c => decide (c.1 < base))
    ++ (List.range n).map (fun i => (base + i, f i))
    ++ m.filter (fun c => decide (base + n ≤ c.1))

namespace Machine

/-- The cell number of `PLANE[y][x]`; the plane has no address of its own (R51; log 12). -/
def planeKey (y x : Nat) : Nat := srcW * y + x

/-- `PLANE[y][x]` (R11, R22). -/
def planeCell (s : State) (y x : Nat) : Gray :=
  (s.plane.read? (planeKey y x)).getD (Config.planeUnspecified s.ramEpoch (planeKey y x))

/-- `DPB[a]` (R11, R26). -/
def dpbByte (s : State) (a : Nat) : Byte := (s.dpb.read? a).getD (Config.dpbUnspecified s.ramEpoch a)

/-- `OUT[a]`, as the display or the host reads it; reading has no side effect (R53, R58). -/
def outByte (s : State) (a : Nat) : Byte := (s.out.read? a).getD (Config.outInitial a)

/-- `raise <Error>`: the status effects of an error condition (R210, R215, R216, R218). It saves nothing and goes
nowhere else: the flag is set, a fatal condition halts, and the two frame conditions write LAST_OUTCOME. -/
def raise (e : ErrorCond) (s : State) : State :=
  match e with
  | .malformedScanline => { s with errMalformed := true }
  | .incompleteFrame => { s with errIncomplete := true, lastOutcome := .dropped }
  | .illegalCommand => { s with errIllegal := true }
  | .sequenceError => { s with errSeq := true }
  | .configMismatch => { s with errConfig := true, halted := true }
  | .outputWriteFailure => { s with errFlush := true, halted := true, lastOutcome := .none }

/-- `respond(STATUS)`: one response word, STATUS after the command's effects (R12, R82). -/
def respond (s : State) : State := { s with outbox := s.outbox ++ [status s] }

/-- A legal command the current state refuses: SequenceError and nothing else (R196, R214). -/
def refuse (s : State) : State := respond (raise .sequenceError s)

/-- The head of the stream spells no command: IllegalCommand and nothing else (R78, R79, R213). -/
def illegalCommand (s : State) : State := respond (raise .illegalCommand s)

/-- The recovery from recoverable errors: the four recoverable flags go to 0 (R194, R220). -/
def clearRecoverable (s : State) : State :=
  { s with errMalformed := false, errIncomplete := false, errIllegal := false, errSeq := false }

/-- ResetSequence, the recovery from a fatal error (R220, R241). PLANE and DPB are not written and their content is
unspecified afterwards (log 4); OUT, the channel and the environment's inputs are not touched (log 18). -/
def resetSequence (s : State) : State :=
  { s with
    rowValid := 0
    skipCtr := 0
    cfgS := 0, cfgD := 0, cfgBufSize := 0, cfgFill := 0
    cfgValid := false
    halted := false
    lastOutcome := .none
    errMalformed := false, errIncomplete := false, errIllegal := false, errSeq := false
    errConfig := false, errFlush := false
    plane := []
    dpb := []
    ramEpoch := s.ramEpoch + 1 }

/-- ROW_VALID with every flag 0: the return to Accumulating(row 0) at the end of FRAME_COMPLETE (R120, R124). -/
def clearRows (s : State) : State := { s with rowValid := 0 }

/-- `SKIP_CTR <- ctr` (R121). -/
def setSkip (ctr : BitVec 8) (s : State) : State := { s with skipCtr := ctr }

/-- `LAST_OUTCOME <- o` (R120). -/
def setOutcome (o : LastOutcome) (s : State) : State := { s with lastOutcome := o }

/-- Take a command's words off the channel before it executes (R71, R81). -/
def consume (rest : List Word) (s : State) : State := { s with inbox := rest }

/-- Store a row of samples and mark it valid, one atomic step (R57, R100). -/
def storeRow (row : Nat) (px : Nat → Gray) (s : State) : State :=
  { s with
    plane := s.plane.writeRange (planeKey row 0) srcW px
    rowValid := s.rowValid ||| BitVec.twoPow 144 row }

end Machine

end Sys2Proof
end

