-- ==== Sys2Proof/Machine/Mapper.lean ====
section
/-! DEFINITION. The Scale Mapper (42_scale_mapper.md): row positions, column map, addresses, geometry check. All
address arithmetic is exact on natural numbers (R9, R145). -/

namespace Sys2Proof.Machine

/-- The row position accumulator before source row `y` is advanced to: −1 at the start of a frame, then 1 or 2 more per
row. The only signed value of the block (R10, R140). -/
def rowAcc : Nat → Int
  | 0 => -1
  | y + 1 => rowAcc y + if y * 2 % 6 = 0 then 1 else 2

/-- RowPos(y): the position row `y` is drawn at, the accumulator after its advance (R140). -/
def rowPos (y : Nat) : Nat := (rowAcc (y + 1)).toNat

/-- ROW_LUT, the row stretch table, as the spec prints it (R142). -/
def rowLut : List Nat :=
  [0, 2, 4, 5, 7, 9, 10, 12, 14, 15, 17, 19]
    ++ [20, 22, 24, 25, 27, 29, 30, 32, 34, 35, 37, 39]
    ++ [40, 42, 44, 45, 47, 49, 50, 52, 54, 55, 57, 59]
    ++ [60, 62, 64, 65, 67, 69, 70, 72, 74, 75, 77, 79]
    ++ [80, 82, 84, 85, 87, 89, 90, 92, 94, 95, 97, 99]
    ++ [100, 102, 104, 105, 107, 109, 110, 112, 114, 115, 117, 119]
    ++ [120, 122, 124, 125, 127, 129, 130, 132, 134, 135, 137, 139]
    ++ [140, 142, 144, 145, 147, 149, 150, 152, 154, 155, 157, 159]
    ++ [160, 162, 164, 165, 167, 169, 170, 172, 174, 175, 177, 179]
    ++ [180, 182, 184, 185, 187, 189, 190, 192, 194, 195, 197, 199]
    ++ [200, 202, 204, 205, 207, 209, 210, 212, 214, 215, 217, 219]
    ++ [220, 222, 224, 225, 227, 229, 230, 232, 234, 235, 237, 239]

/-- The row parity `yy & 1` (R14, R143). -/
def rowParity (yy : Nat) : BitVec 1 := BitVec.ofNat 1 yy

/-- ColL(x), the left destination column (R144). -/
def colL (x : Nat) : Nat := hMargin + hScale * x

/-- ColR(x), the right destination column (R144). -/
def colR (x : Nat) : Nat := hMargin + 1 + hScale * x

/-- PrimBase(yy) (R145). -/
def primBase (S : Word) (yy : Nat) : Nat := yy * S.toNat

/-- SecBase(yy) (R145). -/
def secBase (S D : Word) (yy : Nat) : Nat := yy * S.toNat + D.toNat

/-- PixelByte: the byte of device column `xx` of the scanline at `base`, `base + (xx >> 3)` (R54). -/
def pixelByte (base xx : Nat) : Nat := base + xx / 8

/-- PixelBit: the bit of device column `xx` within its byte, `xx & 7` or `7 - (xx & 7)` (R54). -/
def pixelBit (o : BitOrder) (xx : Nat) : Nat :=
  match o with
  | .msbFirst => 7 - xx % 8
  | .lsbFirst => xx % 8

/-- The smallest buffer that holds every byte the compose pass writes: `239 * S + D + 45` (R147). -/
def bytesNeeded (S D : Word) : Nat := 239 * S.toNat + D.toNat + 45

/-- GeometryFits(S, D, SIZE), on unbounded naturals (R147, R193). -/
def geometryFits (maxBufBytes : Nat) (S D size : Word) : Bool :=
  decide (bytesNeeded S D ≤ size.toNat) && decide (size.toNat ≤ maxBufBytes)

end Sys2Proof.Machine
end

