-- ==== Sys2Proof/Machine/Control.lean ====
section
/-! DEFINITION. The control commands (45_control.md). -/

namespace Sys2Proof.Machine

/-- NOP (R190). -/
def execNop (s : State) : Host.Outcome State Fault Refusal := .next (respond s)

/-- READ_STATUS: it clears nothing (R191). -/
def execReadStatus (s : State) : Host.Outcome State Fault Refusal := .next (respond s)

/-- CLEAR_ERRORS (R194). -/
def execClearErrors (s : State) : Host.Outcome State Fault Refusal := .next (respond (clearRecoverable s))

/-- RESET: the power-on sequence, then the response 0x00000000 (R195, R241). -/
def execReset (s : State) : Host.Outcome State Fault Refusal := .next (respond (resetSequence s))

/-- The accepted geometry goes into the registers and the fill into every active DPB byte (R192). -/
def loadConfig (S D size : Word) (fill : Byte) (s : State) : State :=
  { s with
    cfgS := S, cfgD := D, cfgBufSize := size, cfgFill := fill
    dpb := s.dpb.writeRange 0 size.toNat (fun _ => fill)
    cfgValid := true }

/-- CONFIG for a DPB of `maxBufBytes` bytes (R192, R193). -/
def configure (maxBufBytes : Nat) (S D size : Word) (fill : Byte) (s : State) : Host.Outcome State Fault Refusal :=
  if s.halted || s.cfgValid then .next (refuse s)
  else if geometryFits maxBufBytes S D size then .next (respond (loadConfig S D size fill s))
  else .next (respond (raise .configMismatch s))

/-- CONFIG (R192). -/
def execConfig (S D size : Word) (fill : Byte) (s : State) : Host.Outcome State Fault Refusal :=
  configure Config.maxBufBytes S D size fill s

end Sys2Proof.Machine
end

