-- ==== Sys2Proof/Machine/Dither.lean ====
section
/-! DEFINITION. The Ditherer and the compose pass (43_ditherer.md). A bit of 1 is on, light; a bit of 0 is off, dark (R160). -/

namespace Sys2Proof.Machine

/-- The four device bits of one sample: primary left and right, secondary left and right (R146, R161). -/
structure Pattern where
  pl : Bool
  pr : Bool
  sl : Bool
  sr : Bool
  deriving DecidableEq, Repr

/-- DITHER(g, p), row by row of the table, with `q = p ^ DITHER_PHASE` (R161). -/
def dither (phase : BitVec 1) (g : Gray) (p : BitVec 1) : Pattern :=
  let q := p ^^^ phase
  if g = 0 then ⟨true, true, true, true⟩
  else if g = 1 then (if q = 0 then ⟨true, false, false, true⟩ else ⟨false, true, true, false⟩)
  else if g = 2 then (if q = 0 then ⟨false, true, true, false⟩ else ⟨true, false, false, true⟩)
  else ⟨false, false, false, false⟩

/-- A byte with bit `b` set to `v` and the other seven kept: `(x & ~(1 << b)) | (v << b)` (R165). -/
def putBit (x : Byte) (b : Nat) (v : Bool) : Byte :=
  (x &&& ~~~((1 : Byte) <<< b)) ||| ((BitVec.ofBool v).setWidth 8 <<< b)

/-- SetBit(base, xx, v) on a DPB whose unspecified bytes hold `back` (R165). -/
def setBit (o : BitOrder) (back : Nat → Byte) (m : Memory Byte) (base xx : Nat) (v : Bool) : Memory Byte :=
  m.write (pixelByte base xx) (putBit ((m.read? (pixelByte base xx)).getD (back (pixelByte base xx))) (pixelBit o xx) v)

/-- The four bits of one sample, PL, PR, SL, SR in that order (R164, R166). -/
def composeSample (P : Params) (back : Nat → Byte) (S D : Word) (yy : Nat) (g : Gray) (x : Nat) (m : Memory Byte) :
    Memory Byte :=
  let t := dither P.ditherPhase g (rowParity yy)
  let m1 := setBit P.bitOrder back m (primBase S yy) (colL x) t.pl
  let m2 := setBit P.bitOrder back m1 (primBase S yy) (colR x) t.pr
  let m3 := setBit P.bitOrder back m2 (secBase S D yy) (colL x) t.sl
  setBit P.bitOrder back m3 (secBase S D yy) (colR x) t.sr

/-- The inner loop: the samples of one source row, x increasing (R164, R166). -/
def composeRow (P : Params) (back : Nat → Byte) (S D : Word) (cell : Nat → Nat → Gray) (m : Memory Byte) (y : Nat) :
    Memory Byte :=
  (List.range srcW).foldl (fun m x => composeSample P back S D (rowPos y) (cell y x) x m) m

/-- ComposePass: the source rows, y increasing, over the samples `cell y x` (R164, R166). -/
def composePass (P : Params) (back : Nat → Byte) (S D : Word) (cell : Nat → Nat → Gray) (m : Memory Byte) :
    Memory Byte :=
  (List.range srcH).foldl (composeRow P back S D cell) m

/-- Whether every address the pass forms is inside the active buffer (R52, R147). -/
def addressesInside (s : State) : Bool := decide (bytesNeeded s.cfgS s.cfgD ≤ s.cfgBufSize.toNat)

/-- The state after the compose pass: DPB and nothing else (R164). -/
def composed (P : Params) (s : State) : State :=
  { s with dpb := composePass P (Config.dpbUnspecified s.ramEpoch) s.cfgS s.cfgD (planeCell s) s.dpb }

end Sys2Proof.Machine
end

