-- ==== Sys2Proof/Machine/Flush.lean ====
section
/-! DEFINITION. The Output Flusher (44_output_flusher.md): the environment's answer, the copy, the failed copy. -/

namespace Sys2Proof.Machine

/-- `draw flush_ok`: the environment's next answer, a free value where it has prepared none (R180, R181; log 6). -/
def flushAnswer (s : State) : Bool :=
  match s.flushAnswers with
  | ok :: _ => ok
  | [] => Config.flushOk s.draws

/-- One flush is over: its answer and the racing writes are used up, and the next one draws anew. -/
def endFlush (s : State) : State :=
  { s with flushAnswers := s.flushAnswers.tail, rivals := [], draws := s.draws + 1 }

/-- OUT with every active DPB byte copied into it (R180). -/
def copiedOut (s : State) : Memory Byte := s.out.writeRange 0 s.cfgBufSize.toNat (dpbByte s)

/-- The racing writes of flush `n` to a surface of `size` bytes, from write `j` on: each one either stays or is
overwritten by the flush (R247; log 8). -/
def landRivals (n size : Nat) : Nat → List Host.Cell → Memory Byte → Memory Byte
  | _, [], m => m
  | j, (a, v) :: rest, m =>
    landRivals n size (j + 1) rest (if decide (a < size) && Config.rivalWins n j then m.write a v else m)

/-- A flush that succeeds: OUT takes the active DPB bytes, DPB is not changed (R180). -/
def flushDone (s : State) : State :=
  endFlush { s with out := landRivals s.draws s.cfgBufSize.toNat 0 s.rivals (copiedOut s) }

/-- A flush that fails: every active OUT byte takes any value, and OutputWriteFailure is raised (R180, R181). -/
def flushFailed (s : State) : State :=
  raise .outputWriteFailure
    (endFlush { s with out := s.out.writeRange 0 s.cfgBufSize.toNat (Config.junk s.draws) })

end Sys2Proof.Machine
end

