-- ==== Sys2Proof/Machine/Gate.lean ====
section
/-! DEFINITION. The Frame Gate and FRAME_COMPLETE (41_frame_gate.md). -/

namespace Sys2Proof.Machine

/-- GateStep(K, N) on the skip counter: the verdict and the counter's new value (R121). -/
def gateStep (k : Bool) (n ctr : BitVec 8) : Verdict × BitVec 8 :=
  if k = false then (.compositeNow, 0)
  else if ctr = 0 then (.compositeNow, if n = 0 then 0 else n - 1)
  else (.drop, ctr - 1)

/-- Compose, flush, and record the outcome: the CompositeNow branch of FRAME_COMPLETE (R120). -/
def compositeFrame (P : Params) (s : State) : State :=
  if flushAnswer s then setOutcome .composited (flushDone (composed P s)) else flushFailed (composed P s)

/-- FRAME_COMPLETE for the parameters `P`: refused by state, then incomplete, then the gate's verdict (R120, R217). -/
def frameComplete (P : Params) (k : Bool) (n : BitVec 8) (s : State) : Host.Outcome State Fault Refusal :=
  if s.halted || !s.cfgValid then .next (refuse s)
  else if rowsValid s < srcH then .next (respond (clearRows (raise .incompleteFrame s)))
  else
    match gateStep k n s.skipCtr with
    | (.drop, ctr) => .next (respond (clearRows (setOutcome .dropped (setSkip ctr s))))
    | (.compositeNow, ctr) =>
      if addressesInside s then .next (respond (clearRows (compositeFrame P (setSkip ctr s))))
      else .fault .dpbAddressOutOfRange

/-- FRAME_COMPLETE (R120). -/
def execFrameComplete (k : Bool) (n : BitVec 8) (s : State) : Host.Outcome State Fault Refusal :=
  frameComplete Config.params k n s

end Sys2Proof.Machine
end

