-- ==== Sys2Proof/WellFormed.lean ====
section
/-! DEFINITION. Which terms of `Instr` are commands the encoding can spell. -/

namespace Sys2Proof

/-- The one condition the operand types do not carry: a WRITE_SCANLINE has exactly ten payload words (R71). -/
def Instr.wellFormed : Instr → Bool
  | .nop => true
  | .config _ _ _ _ => true
  | .writeScanline _ payload => payload.length == 10
  | .frameComplete _ _ => true
  | .readStatus => true
  | .clearErrors => true
  | .reset => true

end Sys2Proof
end

