-- ==== Sys2Proof/Decode.lean ====
section
/-! DEFINITION. Decoding of a command stream, total on any list of words (R70 to R81), and the encoder. -/

namespace Sys2Proof

/-- The defined opcodes (R77). -/
inductive Opcode where
  | nop
  | config
  | writeScanline
  | frameComplete
  | readStatus
  | clearErrors
  | reset
  deriving DecidableEq, Repr

/-- The opcode a command word's bits [31:28] name; none for the reserved 0x6 to 0xE (R70, R77, R78). -/
def Opcode.ofBits (b : BitVec 4) : Option Opcode :=
  if b = 0x0 then some .nop
  else if b = 0x1 then some .config
  else if b = 0x2 then some .writeScanline
  else if b = 0x3 then some .frameComplete
  else if b = 0x4 then some .readStatus
  else if b = 0x5 then some .clearErrors
  else if b = 0xF then some .reset
  else none

/-- The match column of the opcode map (R77). -/
def Opcode.pattern : Opcode → Word
  | .nop => 0x00000000
  | .config => 0x10000000
  | .writeScanline => 0x20000000
  | .frameComplete => 0x30000000
  | .readStatus => 0x40000000
  | .clearErrors => 0x50000000
  | .reset => 0xF0000000

/-- The mask column of the opcode map (R77). -/
def Opcode.mask : Opcode → Word
  | .nop => 0xFFFFFFFF
  | .config => 0xFFFFFFFF
  | .writeScanline => 0xFFFFFF00
  | .frameComplete => 0xFFFFFE00
  | .readStatus => 0xFFFFFFFF
  | .clearErrors => 0xFFFFFFFF
  | .reset => 0xFFFFFFFF

/-- How many payload words follow the command word (R71). -/
def Opcode.payloadWords : Opcode → Nat
  | .nop => 0
  | .config => 4
  | .writeScanline => 10
  | .frameComplete => 0
  | .readStatus => 0
  | .clearErrors => 0
  | .reset => 0

/-- `cmd.opcode`: bits [31:28] (R12, R70). -/
def cmdOpcode (w : Word) : BitVec 4 := w.extractLsb' 28 4

/-- ROW: bits [7:0] of a format W word (R73). -/
def cmdRow (w : Word) : BitVec 8 := w.extractLsb' 0 8

/-- K: bit [8] of a format F word (R74). -/
def cmdK (w : Word) : Bool := w.getLsbD 8

/-- N: bits [7:0] of a format F word (R74). -/
def cmdN (w : Word) : BitVec 8 := w.extractLsb' 0 8

/-- Whether bits [31:8] of CONFIG's payload[3] are all 0, as they must be (R75, R79). -/
def fillReservedClear (w : Word) : Bool := w.extractLsb' 8 24 == 0

/-- FILL: bits [7:0] of CONFIG's payload[3] (R75). -/
def fillByte (w : Word) : Byte := w.extractLsb' 0 8

/-- Why a word spells no command (R78, R79). -/
inductive IllegalWord where
  /-- An opcode 0x6 to 0xE (R78). -/
  | reservedOpcode
  /-- A reserved bit of the command word is set (R79). -/
  | reservedBits
  /-- CONFIG's payload[3][31:8] is not 0 (R79). -/
  | reservedPayload
  deriving DecidableEq, Repr

/-- What stands at the head of a command stream. -/
inductive Decoded where
  /-- A command, and the words after it. -/
  | command (i : Instr) (rest : List Word)
  /-- An illegal command, and the words after it and its consumed payload. -/
  | illegal (why : IllegalWord) (rest : List Word)
  /-- The stream ends before a whole command does. -/
  | unfinished
  deriving DecidableEq, Repr

/-- `fields(w0)` and the payload's fields; none when a reserved payload bit is set (R75, R76, R79).
The last arm is reached by no call: `decode` passes `op.payloadWords` words. -/
def operands : Opcode → Word → List Word → Option Instr
  | .nop, _, _ => some .nop
  | .config, _, [s, d, size, fill] =>
    if fillReservedClear fill then some (.config s d size (fillByte fill)) else none
  | .config, _, _ => none
  | .writeScanline, w, payload => some (.writeScanline (cmdRow w) payload)
  | .frameComplete, w, _ => some (.frameComplete (cmdK w) (cmdN w))
  | .readStatus, _, _ => some .readStatus
  | .clearErrors, _, _ => some .clearErrors
  | .reset, _, _ => some .reset

/-- The decoder: the length from bits [31:28] alone, then the reserved bits, then the payload (R71, R78, R79, R81). -/
def decode : List Word → Decoded
  | [] => .unfinished
  | w :: words =>
    match Opcode.ofBits (cmdOpcode w) with
    | none => .illegal .reservedOpcode words
    | some op =>
      if words.length < op.payloadWords then .unfinished
      else if w &&& op.mask ≠ op.pattern then .illegal .reservedBits (words.drop op.payloadWords)
      else
        match operands op w (words.take op.payloadWords) with
        | some i => .command i (words.drop op.payloadWords)
        | none => .illegal .reservedPayload (words.drop op.payloadWords)

/-- The words of a command, from the same tables (R72 to R76, R83). -/
def encode : Instr → List Word
  | .nop => [0x00000000]
  | .config s d size fill => [0x10000000, s, d, size, fill.setWidth 32]
  | .writeScanline row payload => ((0x20000000 : Word) ||| row.setWidth 32) :: payload
  | .frameComplete k n => [(0x30000000 : Word) ||| ((BitVec.ofBool k).setWidth 32 <<< 8) ||| n.setWidth 32]
  | .readStatus => [0x40000000]
  | .clearErrors => [0x50000000]
  | .reset => [0xF0000000]

/-- How many channel words a command occupies, from its first word (R81). -/
def commandLength (w : Word) : Nat :=
  match Opcode.ofBits (cmdOpcode w) with
  | none => 1
  | some op => 1 + op.payloadWords

/-- The `n` channel words of a number: the first in its lowest 32 bits (R55: the channel carries whole words). -/
def channelWords : Nat → Nat → List Word
  | 0, _ => []
  | n + 1, bits => BitVec.ofNat 32 bits :: channelWords n (bits / 2 ^ 32)

/-- The channel words of the instruction whose `nbits` table bits are `w`, later bits 0. -/
def tableWords (nbits w : Nat) : List Word :=
  let bits := w % 2 ^ nbits
  channelWords (commandLength (BitVec.ofNat 32 bits)) bits

/-- The instruction the decoder reads from an opcode-table row's bits. -/
def decodeTableWord (nbits w : Nat) : Option Instr :=
  match decode (tableWords nbits w) with
  | .command i _ => some i
  | .illegal _ _ => none
  | .unfinished => none

end Sys2Proof
end

