-- ==== Sys2Proof/Machine/Operands.lean ====
section
/-! DEFINITION. The payload operands: the packing of sixteen two-bit samples to a word (R76). -/

namespace Sys2Proof.Machine

/-- `pixel[x]` of a WRITE_SCANLINE payload: bits [2i+1 : 2i] of word `x div 16`, `i = x mod 16` (R76).
A word past the payload's end reads 0, which no well-formed command meets (log 15). -/
def pixel (payload : List Word) (x : Nat) : Gray :=
  (payload.getD (x / 16) 0).extractLsb' (2 * (x % 16)) 2

/-- One payload word from its samples, the first in the least significant bits (R76). -/
def packWord : List Gray → Word
  | [] => 0
  | g :: gs => (packWord gs <<< 2) ||| g.setWidth 32

/-- The `n` payload words that carry a list of samples, sixteen to a word (R76). -/
def packWords : Nat → List Gray → List Word
  | 0, _ => []
  | n + 1, gs => packWord (gs.take 16) :: packWords n (gs.drop 16)

/-- The ten payload words of a row of 160 samples (R76). -/
def packPixels (gs : List Gray) : List Word := packWords 10 gs

/-- The payload word whose sixteen samples all equal `g`: `g × 0x55555555` (R84). -/
def grayWord (g : Gray) : Word := g.setWidth 32 * 0x55555555

end Sys2Proof.Machine
end

