-- ==== Sys2Proof/Machine/Scanline.lean ====
section
/-! DEFINITION. The Scanline Accumulator: WRITE_SCANLINE (40_scanline_accumulator.md). -/

namespace Sys2Proof.Machine

/-- WRITE_SCANLINE: refused by state, then malformed by row, else the row is stored (R100, R101, R217). -/
def execWriteScanline (row : BitVec 8) (payload : List Word) (s : State) : Host.Outcome State Fault Refusal :=
  if s.halted || !s.cfgValid then .next (refuse s)
  else if srcH ≤ row.toNat then .next (respond (raise .malformedScanline s))
  else .next (respond (storeRow row.toNat (pixel payload) s))

end Sys2Proof.Machine
end

