-- ==== Sys2Proof/Machine/Dispatch.lean ====
section
/-! DEFINITION. One arm per command. -/

namespace Sys2Proof.Machine

def exec (i : Instr) (s : State) : Host.Outcome State Fault Refusal :=
  match i with
  | .nop => Sys2Proof.Machine.execNop s
  | .config S D size fill => Sys2Proof.Machine.execConfig S D size fill s
  | .writeScanline row payload => Sys2Proof.Machine.execWriteScanline row payload s
  | .frameComplete k n => Sys2Proof.Machine.execFrameComplete k n s
  | .readStatus => Sys2Proof.Machine.execReadStatus s
  | .clearErrors => Sys2Proof.Machine.execClearErrors s
  | .reset => Sys2Proof.Machine.execReset s

end Sys2Proof.Machine
end

