-- ==== Sys2Proof/Machine/Step.lean ====
section
/-! DEFINITION. One step: the block takes the next command off the channel, executes or refuses it to completion, and
responds (R13, R81, R82). -/

namespace Sys2Proof.Machine

/-- One step. With no whole command on the channel the block is idle and holds all its state (R228; log 1, 2). -/
def step (s : State) : Host.Outcome State Fault Refusal :=
  match decode s.inbox with
  | .command i rest => exec i (consume rest s)
  | .illegal _ rest => .next (illegalCommand (consume rest s))
  | .unfinished => .next s

/-- The state whose next command is the one whose table bits are `w`: its words at the head of the channel (log 1). -/
def State.withFetchWord (s : State) (nbits w : Nat) : State := { s with inbox := tableWords nbits w ++ s.inbox }

end Sys2Proof.Machine
end

