-- ==== Sys2Proof/Machine/Assembler.lean ====
section
/-! DEFINITION. The assembler's notation: the mnemonics, the operand limits, the pseudo-instructions, and the reading of
a line of text (R83, R84; log 16). -/

namespace Sys2Proof.Machine

/-- A line of assembly, operands as written (R83, R84). -/
inductive AsmLine where
  | nop
  | config (s d size fill : Nat)
  | wslPixels (row : Nat) (pixels : List Nat)
  | wslWords (row : Nat) (words : List Nat)
  | fc (k n : Nat)
  | rstat
  | clrerr
  | reset
  | wslFill (row g : Nat)
  | frameFill (g : Nat)
  | frame
  | frameSkip (n : Nat)
  deriving DecidableEq, Repr

/-- Whether an operand fits 32 bits (R83). -/
def fitsWord (n : Nat) : Bool := decide (n < 2 ^ 32)

/-- The WRITE_SCANLINE whose 160 samples all equal `g` (R84). -/
def fillScanline (g : Nat) (row : Nat) : Instr :=
  .writeScanline (BitVec.ofNat 8 row) (List.replicate 10 (grayWord (BitVec.ofNat 2 g)))

/-- The commands a line stands for; none where an assembler must reject it (R83, R84). -/
def assemble : AsmLine → Option (List Instr)
  | .nop => some [.nop]
  | .config s d size fill =>
    if fitsWord s && fitsWord d && fitsWord size && decide (fill < 256) then
      some [.config (BitVec.ofNat 32 s) (BitVec.ofNat 32 d) (BitVec.ofNat 32 size) (BitVec.ofNat 8 fill)]
    else none
  | .wslPixels row pixels =>
    if decide (row < 256) && pixels.length == 160 && pixels.all (fun p => decide (p < 4)) then
      some [.writeScanline (BitVec.ofNat 8 row) (packPixels (pixels.map (BitVec.ofNat 2)))]
    else none
  | .wslWords row words =>
    if decide (row < 256) && words.length == 10 && words.all fitsWord then
      some [.writeScanline (BitVec.ofNat 8 row) (words.map (BitVec.ofNat 32))]
    else none
  | .fc k n =>
    if decide (k < 2) && decide (n < 256) then some [.frameComplete (k == 1) (BitVec.ofNat 8 n)] else none
  | .rstat => some [.readStatus]
  | .clrerr => some [.clearErrors]
  | .reset => some [.reset]
  | .wslFill row g => if decide (row < 256) && decide (g < 4) then some [fillScanline g row] else none
  | .frameFill g => if g < 4 then some ((List.range 144).map (fillScanline g)) else none
  | .frame => some [.frameComplete false 0]
  | .frameSkip n => if n < 256 then some [.frameComplete true (BitVec.ofNat 8 n)] else none

/-- The channel words a line encodes (R83, R84). -/
def assembleWords (l : AsmLine) : Option (List Word) := (assemble l).map fun is => is.flatMap encode

/-- The tokens of a line. -/
inductive AsmToken where
  | word (cs : List Char)
  | comma
  | openBrace
  | closeBrace
  deriving DecidableEq, Repr

/-- The characters read so far, as a token if there are any. -/
def pendingToken (cs : List Char) : List AsmToken := if cs = [] then [] else [.word cs]

/-- Split a line at spaces, commas and braces. -/
def tokens (pending : List Char) : List Char → List AsmToken
  | [] => pendingToken pending
  | c :: cs =>
    if c = ' ' then pendingToken pending ++ tokens [] cs
    else if c = ',' then pendingToken pending ++ .comma :: tokens [] cs
    else if c = Char.ofNat 123 then pendingToken pending ++ .openBrace :: tokens [] cs
    else if c = Char.ofNat 125 then pendingToken pending ++ .closeBrace :: tokens [] cs
    else tokens (pending ++ [c]) cs

/-- The value of a digit, upper or lower case. -/
def digitValue (c : Char) : Option Nat :=
  if 48 ≤ c.toNat ∧ c.toNat ≤ 57 then some (c.toNat - 48)
  else if 65 ≤ c.toNat ∧ c.toNat ≤ 70 then some (c.toNat - 55)
  else if 97 ≤ c.toNat ∧ c.toNat ≤ 102 then some (c.toNat - 87)
  else none

/-- The number that digits spell in a base, most significant first, after `acc`. -/
def digitsValue (base acc : Nat) : List Char → Option Nat
  | [] => some acc
  | c :: cs =>
    match digitValue c with
    | some d => if d < base then digitsValue base (acc * base + d) cs else none
    | none => none

/-- A number: decimal, or hexadecimal with `0x` (R83). -/
def number : List Char → Option Nat
  | [] => none
  | ['0', 'x'] => none
  | '0' :: 'x' :: cs => digitsValue 16 0 cs
  | c :: cs => digitsValue 10 0 (c :: cs)

/-- One or more numbers separated by commas (R83). -/
def numbers : List AsmToken → Option (List Nat)
  | [.word cs] => (number cs).map fun n => [n]
  | .word cs :: .comma :: ts =>
    match number cs, numbers ts with
    | some n, some ns => some (n :: ns)
    | _, _ => none
  | _ => none

/-- The operands of `WSL` in its two spellings (R83). -/
def wslOperands : List AsmToken → Option AsmLine
  | .word cs :: .comma :: .openBrace :: ts =>
    if ts.getLast? = some .closeBrace then
      match number cs, numbers ts.dropLast with
      | some row, some pixels => some (.wslPixels row pixels)
      | _, _ => none
    else none
  | ts =>
    match numbers ts with
    | some (row :: words) => some (.wslWords row words)
    | _ => none

/-- A mnemonic and its operands (R83, R84). -/
def asmLine (mnemonic : String) (ts : List AsmToken) : Option AsmLine :=
  if mnemonic = "WSL" then wslOperands ts
  else if ts = [] then
    if mnemonic = "NOP" then some .nop
    else if mnemonic = "RSTAT" then some .rstat
    else if mnemonic = "CLRERR" then some .clrerr
    else if mnemonic = "RESET" then some .reset
    else if mnemonic = "FRAME" then some .frame
    else none
  else
    match mnemonic, numbers ts with
    | "CONFIG", some [s, d, size, fill] => some (.config s d size fill)
    | "FC", some [k, n] => some (.fc k n)
    | "WSLFILL", some [row, g] => some (.wslFill row g)
    | "FRAMEFILL", some [g] => some (.frameFill g)
    | "FRAMESKIP", some [n] => some (.frameSkip n)
    | _, _ => none

/-- Read a line of text (R83). -/
def parseLine (line : String) : Option AsmLine :=
  match tokens [] line.toList with
  | .word cs :: ts => asmLine (String.ofList cs) ts
  | _ => none

end Sys2Proof.Machine
end

