-- ==== Sys2Proof/Machine/HostInterface.lean ====
section
/-! DEFINITION. What the host and the environment can do to the block between two steps (R230, R231). -/

namespace Sys2Proof.Machine

/-- One interaction from outside the block (R230). -/
inductive HostAction where
  /-- Send one word on the command channel. -/
  | send (w : Word)
  /-- Take the oldest response. -/
  | takeResponse
  /-- The environment settles the answer of one more coming flush (R180). -/
  | answerFlush (ok : Bool)
  /-- Another agent writes an OUT byte while the next flush runs (R247). -/
  | raceWrite (a : Nat) (v : Byte)
  /-- The power-on reset (R240). -/
  | powerOn
  deriving DecidableEq, Repr

/-- The state after an action from outside. The power-on reset runs the sequence RESET runs and returns STATUS
(R230, R240; log 11); words sent before it are gone, so that the first command after it is what the host sends next
(R242). -/
def hostAct (h : HostAction) (s : State) : State :=
  match h with
  | .send w => { s with inbox := s.inbox ++ [w] }
  | .takeResponse => { s with outbox := s.outbox.tail }
  | .answerFlush ok => { s with flushAnswers := s.flushAnswers ++ [ok] }
  | .raceWrite a v => { s with rivals := s.rivals ++ [(a, v)] }
  | .powerOn => respond (resetSequence (consume [] s))

/-- The channel duties (R231, 1, 2 and 4): a word is sent only into an unfinished command or, to begin a command, once
every response is taken; nobody writes OUT while a flush runs. The block enforces none of them (log 19). -/
def dutifulAction (s : State) : HostAction → Bool
  | .send _ => decode s.inbox == .unfinished && (s.inbox != [] || s.outbox == [])
  | .takeResponse => true
  | .answerFlush _ => true
  | .raceWrite _ _ => false
  | .powerOn => true

/-- The command-order duties (R231, 3 and 5): CONFIG first and once, all 144 rows before a FRAME_COMPLETE. -/
def dutifulCommand (s : State) (i : Instr) : Bool :=
  accepts i (blockState s)
    && match i with
      | .frameComplete _ _ => rowsValid s == srcH
      | .nop => true
      | .config _ _ _ _ => true
      | .writeScanline _ _ => true
      | .readStatus => true
      | .clearErrors => true
      | .reset => true

end Sys2Proof.Machine
end

