-- ==== Sys2Proof/Safety.lean ====
section
/-! DEFINITION. What claims are stated in: the clean run (R250), the invariant of the block, the bytes and bits of the
image, the compose order, and the verdicts of successive frames. -/

namespace Sys2Proof.Machine

/-- No ERR_* flag is set. -/
def errorFree (s : State) : Bool :=
  !s.errMalformed && !s.errIncomplete && !s.errIllegal && !s.errSeq && !s.errConfig && !s.errFlush

/-- A clean run of `k` steps: it completes, no ERR_* flag is set at any point of it, and HALTED = 0 at its end
(R250; log 20). -/
def cleanRun : Nat → State → Bool
  | 0, s => errorFree s && !s.halted
  | k + 1, s =>
    errorFree s
      && match step s with
        | .next t => cleanRun k t
        | .fault _ => false
        | .refused _ => false

/-- The base of the primary (`sec` false) or secondary (`sec` true) scanline of position `yy` (R145). -/
def scanBase (S D : Word) (sec : Bool) (yy : Nat) : Nat := if sec then secBase S D yy else primBase S yy

/-- DPB byte `a` belongs to the image: bytes 5 to 44 of a scanline of a visited position (R147, R165). -/
def ImageByte (S D : Word) (a : Nat) : Prop :=
  ∃ y < srcH, ∃ sec : Bool, scanBase S D sec (rowPos y) + 5 ≤ a ∧ a ≤ scanBase S D sec (rowPos y) + 44

/-- What every state a run reaches from reset satisfies. -/
structure BlockInv (s : State) : Prop where
  /-- PLANE keeps its canonical form. -/
  planeWf : s.plane.wf
  /-- DPB keeps its canonical form. -/
  dpbWf : s.dpb.wf
  /-- OUT keeps its canonical form. -/
  outWf : s.out.wf
  /-- PLANE indices are in [0,144)×[0,160) (R51). -/
  planeBound : ∀ c ∈ s.plane, c.1 < srcW * srcH
  /-- No DPB byte at or above CFG_BUF_SIZE is written (R52). -/
  dpbBound : ∀ c ∈ s.dpb, c.1 < s.cfgBufSize.toNat
  /-- No OUT byte at or above the buffer's capacity is written (R53, R147). -/
  outBound : ∀ c ∈ s.out, c.1 < Config.maxBufBytes
  /-- A row marked valid has every cell written (R23). -/
  validRowsWritten : ∀ y < srcH, s.rowValid.getLsbD y = true → ∀ x < srcW, (s.plane.read? (planeKey y x)).isSome
  /-- While CFG_VALID is set the geometry fits (R27, R193). -/
  configuredFits : s.cfgValid = true → geometryFits Config.maxBufBytes s.cfgS s.cfgD s.cfgBufSize = true
  /-- While CFG_VALID is set every active DPB byte has been filled (R26). -/
  configuredFilled : s.cfgValid = true → ∀ a < s.cfgBufSize.toNat, (s.dpb.read? a).isSome
  /-- While CFG_VALID is set every active DPB byte outside the image keeps its CONFIG fill (R26, R167, R182). -/
  fillKept : s.cfgValid = true → ∀ a < s.cfgBufSize.toNat, ¬ ImageByte s.cfgS s.cfgD a → s.dpb.read? a = some s.cfgFill
  /-- While CFG_VALID is clear the registers are as reset left them (R27, R196). -/
  unconfigured : s.cfgValid = false →
    s.cfgS = 0 ∧ s.cfgD = 0 ∧ s.cfgBufSize = 0 ∧ s.cfgFill = 0 ∧ s.rowValid = 0 ∧ s.skipCtr = 0
      ∧ s.lastOutcome = .none ∧ s.errMalformed = false ∧ s.errIncomplete = false
  /-- HALTED is set together with ERR_CONFIG or ERR_FLUSH (R31). -/
  haltedCause : s.halted = (s.errConfig || s.errFlush)
  /-- A ConfigMismatch leaves the block unconfigured (R221). -/
  configErrorUnconfigured : s.errConfig = true → s.cfgValid = false
  /-- An OutputWriteFailure needs a configured block (R221). -/
  flushErrorConfigured : s.errFlush = true → s.cfgValid = true
  /-- A failed flush leaves LAST_OUTCOME at NONE (R29). -/
  flushErrorOutcome : s.errFlush = true → s.lastOutcome = .none

/-- No two scanlines of visited positions share an image byte (R149). -/
def NonAliasing (S D : Word) : Prop :=
  ∀ y < srcH, ∀ z < srcH, ∀ b c : Bool, (y, b) ≠ (z, c) →
    scanBase S D b (rowPos y) + 40 ≤ scanBase S D c (rowPos z)
      ∨ scanBase S D c (rowPos z) + 40 ≤ scanBase S D b (rowPos y)

/-- Byte `a` of a DPB whose unspecified bytes hold `back`. -/
def memByte (back : Nat → Byte) (m : Memory Byte) (a : Nat) : Byte := (m.read? a).getD (back a)

/-- The device bit of column `xx` of the scanline at `base` (R54). -/
def deviceBit (o : BitOrder) (back : Nat → Byte) (m : Memory Byte) (base xx : Nat) : Bool :=
  (memByte back m (pixelByte base xx)).getLsbD (pixelBit o xx)

/-- The left or the right column of a sample (R144). -/
def column (right : Bool) (x : Nat) : Nat := if right then colR x else colL x

/-- The bit of a pattern for a scanline (primary or secondary) and a side (left or right) (R146). -/
def Pattern.bit (t : Pattern) (sec right : Bool) : Bool :=
  if sec then (if right then t.sr else t.sl) else (if right then t.pr else t.pl)

/-- The place of a bit write in the compose order: y increasing, within y x increasing, within a sample PL, PR, SL, SR
(R166). -/
def writeNumber (y x : Nat) (sec right : Bool) : Nat := 4 * (srcW * y + x) + 2 * sec.toNat + right.toNat

/-- Two bit writes, each at a column of a scanline base, go to one device bit (R54, R149). -/
abbrev SameDeviceBit (o : BitOrder) (base xx base' xx' : Nat) : Prop :=
  pixelByte base xx = pixelByte base' xx' ∧ pixelBit o xx = pixelBit o xx'

/-- The verdicts of `m` successive complete frames with K = 1 and a constant N, from a skip counter (R123). -/
def gateVerdicts (n : BitVec 8) : Nat → BitVec 8 → List Verdict
  | 0, _ => []
  | m + 1, ctr => (gateStep true n ctr).1 :: gateVerdicts n m (gateStep true n ctr).2

end Sys2Proof.Machine
end

