-- ==== Sys2Proof/Certificates/Slice0/Obligations.lean ====
section
/-! DEFINITION. The statements for the provers. -/

open Sys2Proof Sys2Proof.Machine

/-! ### Encoding -/

/-- Words written out from the opcode map and the vectors V-DC1 to V-DC17 decode to what they stand for. -/
def Obligations.DecodesTheSpecsWords : Prop :=
  decode [0x00000000] = .command .nop []
    ∧ decode [0x10000000, 0x190, 0x34, 0x17700, 0xA5] = .command (.config 400 52 96000 0xA5) []
    ∧ decode (0x2000008F :: List.replicate 10 0x55555555)
        = .command (.writeScanline 143 (List.replicate 10 0x55555555)) []
    ∧ decode [0x30000103, 0x40000000] = .command (.frameComplete true 3) [0x40000000]
    ∧ decode [0x300000FF] = .command (.frameComplete false 255) []
    ∧ decode [0x40000000] = .command .readStatus []
    ∧ decode [0x50000000] = .command .clearErrors []
    ∧ decode [0xF0000000] = .command .reset []
    ∧ decode [0xF0000001] = .illegal .reservedBits []
    ∧ decode [0x60000000, 0] = .illegal .reservedOpcode [0]
    ∧ decode [0x10000000, 400, 52, 96000, 0x100] = .illegal .reservedPayload []

/-- Every command decodes from its own words, with every operand at every value (R70 to R77, R81). -/
def Obligations.DecodeOfEncodeIsTheCommand : Prop :=
  ∀ (i : Instr) (rest : List Word), i.wellFormed = true → decode (encode i ++ rest) = .command i rest

/-- What decodes to a command is that command's encoding: each stream has one meaning (R77, R81). -/
def Obligations.EncodeOfDecodeIsTheStream : Prop :=
  ∀ (ws rest : List Word) (i : Instr), decode ws = .command i rest → i.wellFormed = true ∧ ws = encode i ++ rest

/-- The samples packed by R76 are the samples the block reads back, column by column. -/
def Obligations.PackedSamplesAreThePixels : Prop :=
  ∀ gs : List Gray, gs.length = 160 →
    (packPixels gs).length = 10 ∧ ∀ x < 160, pixel (packPixels gs) x = gs.getD x 0

/-- What the assembler makes of each line: exactly the operands R83 allows are accepted, rows 144 to 255 included; the
words of an accepted line are those of the tables of R83 and R84, written here as numbers; every command is well formed;
and the texts of R83 and R84 read as the lines they spell (what a text may contain beyond the tables is the model's
choice, log 16). -/
def Obligations.AssemblerKeepsTheOperandLimits : Prop :=
  (∀ l is, assemble l = some is → assembleWords l = some (is.flatMap encode) ∧ ∀ i ∈ is, i.wellFormed = true)
    ∧ assembleWords .nop = some [0x00000000]
    ∧ (∀ s d size fill, assembleWords (.config s d size fill)
        = if s < 2 ^ 32 ∧ d < 2 ^ 32 ∧ size < 2 ^ 32 ∧ fill ≤ 255 then
            some [0x10000000, BitVec.ofNat 32 s, BitVec.ofNat 32 d, BitVec.ofNat 32 size, BitVec.ofNat 32 fill]
          else none)
    ∧ (∀ row ps, if row ≤ 255 ∧ ps.length = 160 ∧ ∀ p ∈ ps, p ≤ 3 then
          ∃ payload, assembleWords (.wslPixels row ps) = some (BitVec.ofNat 32 (0x20000000 + row) :: payload)
            ∧ payload.length = 10
            ∧ ∀ x < 160, (payload.getD (x / 16) 0).extractLsb' (2 * (x % 16)) 2 = BitVec.ofNat 2 (ps.getD x 0)
        else assembleWords (.wslPixels row ps) = none)
    ∧ (∀ row ws, assembleWords (.wslWords row ws)
        = if row ≤ 255 ∧ ws.length = 10 ∧ ∀ w ∈ ws, w < 2 ^ 32 then
            some (BitVec.ofNat 32 (0x20000000 + row) :: ws.map (BitVec.ofNat 32))
          else none)
    ∧ (∀ k n, assembleWords (.fc k n)
        = if k ≤ 1 ∧ n ≤ 255 then some [BitVec.ofNat 32 (0x30000000 + 0x100 * k + n)] else none)
    ∧ assembleWords .rstat = some [0x40000000]
    ∧ assembleWords .clrerr = some [0x50000000]
    ∧ assembleWords .reset = some [0xF0000000]
    ∧ (∀ row g, assembleWords (.wslFill row g)
        = if row ≤ 255 ∧ g ≤ 3 then
            some (BitVec.ofNat 32 (0x20000000 + row) :: List.replicate 10 (BitVec.ofNat 32 (g * 0x55555555)))
          else none)
    ∧ (∀ g, assembleWords (.frameFill g)
        = if g ≤ 3 then
            some ((List.range 144).flatMap fun row =>
              BitVec.ofNat 32 (0x20000000 + row) :: List.replicate 10 (BitVec.ofNat 32 (g * 0x55555555)))
          else none)
    ∧ assembleWords .frame = some [0x30000000]
    ∧ (∀ n, assembleWords (.frameSkip n)
        = if n ≤ 255 then some [BitVec.ofNat 32 (0x30000100 + n)] else none)
    ∧ parseLine "NOP" = some .nop
    ∧ parseLine "CONFIG 400, 52, 0x17700, 0xA5" = some (.config 400 52 96000 0xA5)
    ∧ parseLine ("WSL 144, " ++ String.ofList [Char.ofNat 123] ++ "0, 1, 2, 3" ++ String.ofList [Char.ofNat 125])
        = some (.wslPixels 144 [0, 1, 2, 3])
    ∧ parseLine "WSL 143, 0xE4E4E4E4, 1" = some (.wslWords 143 [0xE4E4E4E4, 1])
    ∧ parseLine "FC 1, 3" = some (.fc 1 3)
    ∧ parseLine "RSTAT" = some .rstat
    ∧ parseLine "CLRERR" = some .clrerr
    ∧ parseLine "RESET" = some .reset
    ∧ parseLine "WSLFILL 5, 3" = some (.wslFill 5 3)
    ∧ parseLine "FRAMEFILL 1" = some (.frameFill 1)
    ∧ parseLine "FRAME" = some .frame
    ∧ parseLine "FRAMESKIP 3" = some (.frameSkip 3)

/-! ### The step and the channel -/

/-- A step with a command at the head of the channel takes its words off and executes it (R13, R81; log 1). -/
def Obligations.StepRunsTheDecodedCommand : Prop :=
  (∀ (s : State) (i : Instr) (rest : List Word), decode s.inbox = .command i rest →
      step s = exec i { s with inbox := rest })
    ∧ (∀ (s : State) (i : Instr) (rest : List Word), i.wellFormed = true → s.inbox = encode i ++ rest →
      step s = exec i { s with inbox := rest })

/-- With less than a whole command on the channel the block waits and holds all its state (R228; the waiting is the
model's choice, log 1 and log 2). -/
def Obligations.StepWaitsForAWholeCommand : Prop :=
  ∀ s : State, (∀ w ws, s.inbox = w :: ws → ws.length + 1 < commandLength w) → step s = .next s

/-- A reserved opcode in any state: IllegalCommand, no payload consumed, nothing else changed, STATUS returned (R78). -/
def Obligations.ReservedOpcodeIsIllegal : Prop :=
  ∀ (s : State) (w : Word) (rest : List Word), s.inbox = w :: rest →
    6 ≤ (w.extractLsb' 28 4).toNat → (w.extractLsb' 28 4).toNat ≤ 14 →
      step s = .next { s with
        inbox := rest
        errIllegal := true
        outbox := s.outbox ++ [status { s with errIllegal := true }] }

/-- A reserved bit of a defined command word, or of CONFIG's payload[3], in any state: IllegalCommand, the payload
consumed, nothing executed, nothing else changed, STATUS returned (R79). -/
def Obligations.ReservedBitIsIllegal : Prop :=
  ∀ (s : State) (w : Word) (op : Opcode) (payload rest : List Word), s.inbox = w :: payload ++ rest →
    Opcode.ofBits (w.extractLsb' 28 4) = some op → payload.length = op.payloadWords →
    ((op = .writeScanline ∧ w.extractLsb' 8 20 ≠ 0)
      ∨ (op = .frameComplete ∧ w.extractLsb' 9 19 ≠ 0)
      ∨ (op ≠ .writeScanline ∧ op ≠ .frameComplete ∧ w.extractLsb' 0 28 ≠ 0)
      ∨ (op = .config ∧ (payload.getD 3 0).extractLsb' 8 24 ≠ 0)) →
      step s = .next { s with
        inbox := rest
        errIllegal := true
        outbox := s.outbox ++ [status { s with errIllegal := true }] }

/-- Every command, executed, refused or illegal, returns one response word: STATUS after its effects; for RESET it is
0x00000000 (R82). -/
def Obligations.OneResponsePerCommand : Prop :=
  ∀ s t : State, decode s.inbox ≠ .unfinished → step s = .next t →
    t.outbox = s.outbox ++ [status t]
      ∧ ∀ rest, decode s.inbox = .command .reset rest → t.outbox = s.outbox ++ [0x00000000]

/-- A host that keeps the channel duties never has more than one command on the channel (R231; log 19). -/
def Obligations.DutifulHostSendsOneCommand : Prop :=
  ∀ (s : State) (w : Word), dutifulAction s (.send w) = true →
    match decode (hostAct (.send w) s).inbox with
    | .command _ rest => rest = []
    | .illegal _ rest => rest = []
    | .unfinished => True

/-! ### STATUS and the error conditions -/

/-- STATUS, field by field, with the encoding of LAST_OUTCOME: 0 NONE, 1 DROPPED, 2 COMPOSITED (R28, R29). -/
def Obligations.StatusLayout : Prop :=
  ∀ s : State,
    (status s).getLsbD 0 = s.cfgValid ∧ (status s).getLsbD 1 = s.halted
      ∧ (s.lastOutcome = .none → (status s).extractLsb' 2 2 = 0)
      ∧ (s.lastOutcome = .dropped → (status s).extractLsb' 2 2 = 1)
      ∧ (s.lastOutcome = .composited → (status s).extractLsb' 2 2 = 2)
      ∧ (status s).getLsbD 4 = s.errMalformed ∧ (status s).getLsbD 5 = s.errIncomplete
      ∧ (status s).getLsbD 6 = s.errIllegal ∧ (status s).getLsbD 7 = s.errSeq
      ∧ (status s).getLsbD 8 = s.errConfig ∧ (status s).getLsbD 9 = s.errFlush
      ∧ (status s).extractLsb' 10 6 = 0
      ∧ (status s).extractLsb' 16 8 = s.skipCtr
      ∧ ((status s).extractLsb' 24 8).toNat = rowsValid s

/-- LAST_OUTCOME: its encoding, never 3; only FRAME_COMPLETE and RESET write it, and a refused FRAME_COMPLETE does not
(R29). -/
def Obligations.LastOutcomeIsWrittenByFrameCompleteAndReset : Prop :=
  (∀ s : State, (status s).extractLsb' 2 2 ≠ 3)
    ∧ (∀ (i : Instr) (s t : State), exec i s = .next t → t.lastOutcome ≠ s.lastOutcome →
        i = .reset ∨ ((∃ k n, i = .frameComplete k n) ∧ s.halted = false ∧ s.cfgValid = true))

/-- The error table: each condition sets the STATUS bit its code names, the fatal ones halt, the two frame conditions
write LAST_OUTCOME, and nothing else is recorded (R210). -/
def Obligations.RaisedErrorSetsItsStatusBit : Prop :=
  ∀ (e : ErrorCond) (s : State),
    (status (raise e s)).getLsbD e.code = true
      ∧ (∀ f : ErrorCond, f ≠ e → (status (raise e s)).getLsbD f.code = (status s).getLsbD f.code)
      ∧ (raise e s).halted = (s.halted || decide (e = .configMismatch ∨ e = .outputWriteFailure))
      ∧ (raise e s).lastOutcome
          = (if e = .incompleteFrame then .dropped else if e = .outputWriteFailure then .none else s.lastOutcome)
      ∧ { raise e s with
          errMalformed := s.errMalformed, errIncomplete := s.errIncomplete, errIllegal := s.errIllegal
          errSeq := s.errSeq, errConfig := s.errConfig, errFlush := s.errFlush
          halted := s.halted, lastOutcome := s.lastOutcome } = s

/-- One command raises at most one error condition (R217). -/
def Obligations.AtMostOneErrorPerCommand : Prop :=
  ∀ (s t : State) (e f : ErrorCond), step s = .next t →
    e.flag s = false → e.flag t = true → f.flag s = false → f.flag t = true → e = f

/-- A legal command is refused, with ERR_SEQ, a response and no other effect, exactly in the states of the table; an
accepted one never raises SequenceError (R196, R214). -/
def Obligations.RefusedCommandsSetErrSeqOnly : Prop :=
  (∀ (S D size : Word) (fill : Byte) (s : State), s.halted = true ∨ s.cfgValid = true →
      exec (.config S D size fill) s
        = .next { s with errSeq := true, outbox := s.outbox ++ [status { s with errSeq := true }] })
    ∧ (∀ (row : BitVec 8) (payload : List Word) (s : State), s.halted = true ∨ s.cfgValid = false →
      exec (.writeScanline row payload) s
        = .next { s with errSeq := true, outbox := s.outbox ++ [status { s with errSeq := true }] })
    ∧ (∀ (k : Bool) (n : BitVec 8) (s : State), s.halted = true ∨ s.cfgValid = false →
      exec (.frameComplete k n) s
        = .next { s with errSeq := true, outbox := s.outbox ++ [status { s with errSeq := true }] })
    ∧ (∀ (i : Instr) (s t : State), accepts i (blockState s) = true → exec i s = .next t →
      t.errSeq = true → s.errSeq = true)

/-- HALTED: set together with a fatal flag, cleared only by RESET, and while it is set only NOP, READ_STATUS,
CLEAR_ERRORS and RESET are executed (R31). -/
def Obligations.HaltedUntilReset : Prop :=
  (∀ s t : State, step s = .next t → s.halted = false → t.halted = true →
      t.errConfig = true ∨ t.errFlush = true)
    ∧ (∀ s t : State, step s = .next t →
      (s.errConfig = false ∧ t.errConfig = true) ∨ (s.errFlush = false ∧ t.errFlush = true) → t.halted = true)
    ∧ (∀ s t : State, step s = .next t → s.halted = true → t.halted = false →
      ∃ rest, decode s.inbox = .command .reset rest)
    ∧ (∀ (i : Instr) (s : State), s.halted = true →
      i ≠ .nop → i ≠ .readStatus → i ≠ .clearErrors → i ≠ .reset →
        exec i s = .next { s with errSeq := true, outbox := s.outbox ++ [status { s with errSeq := true }] })

/-- Sticky flags: a recoverable one is cleared only by CLEAR_ERRORS or RESET, a fatal one only by RESET (R30). -/
def Obligations.ErrorFlagsAreSticky : Prop :=
  ∀ (s t : State) (e : ErrorCond), step s = .next t → e.flag s = true → e.flag t = false →
    (∃ rest, decode s.inbox = .command .reset rest)
      ∨ (e.fatal = false ∧ ∃ rest, decode s.inbox = .command .clearErrors rest)

/-! ### Control commands -/

/-- NOP and READ_STATUS, in every state: the response and nothing else (R190, R191). -/
def Obligations.NopAndReadStatusOnlyRespond : Prop :=
  ∀ s : State,
    exec .nop s = .next { s with outbox := s.outbox ++ [status s] }
      ∧ exec .readStatus s = .next { s with outbox := s.outbox ++ [status s] }

/-- CLEAR_ERRORS, in every state: the four recoverable flags go to 0, the response, and nothing else; HALTED, ERR_CONFIG,
ERR_FLUSH, LAST_OUTCOME, SKIP_CTR and ROW_VALID stay (R194). -/
def Obligations.ClearErrorsClearsTheRecoverableFlags : Prop :=
  ∀ s : State, ∃ t, exec .clearErrors s = .next t
    ∧ t = { s with
        errMalformed := false, errIncomplete := false, errIllegal := false, errSeq := false
        outbox := s.outbox ++ [status t] }

/-- RESET, in every state: every register at its reset value, OUT, the channel and the environment's inputs untouched,
the response 0x00000000. PLANE and DPB are unspecified after it, so nothing is said of them (R195, R241). Two clauses are
the model's choice and no rule: that the channel, the responses not taken, the settled flush answers, the pending racing
writes and the count `draws` of flushes stay as they are (log 18), and that the count `ramEpoch` of resets goes up
(log 4). -/
def Obligations.ResetCommandRestoresTheResetState : Prop :=
  ∀ s : State, ∃ t, exec .reset s = .next t
    ∧ t = { State.reset with
        plane := t.plane, dpb := t.dpb
        out := s.out, inbox := s.inbox, outbox := s.outbox ++ [0x00000000]
        flushAnswers := s.flushAnswers, rivals := s.rivals, ramEpoch := s.ramEpoch + 1, draws := s.draws }

/-- The reset values: every register and flag 0, LAST_OUTCOME NONE, STATUS 0x00000000 (R35). -/
def Obligations.ResetValues : Prop :=
  (∀ y < 144, State.reset.rowValid.getLsbD y = false)
    ∧ State.reset.skipCtr = 0 ∧ State.reset.cfgS = 0 ∧ State.reset.cfgD = 0 ∧ State.reset.cfgBufSize = 0
    ∧ State.reset.cfgFill = 0 ∧ State.reset.cfgValid = false ∧ State.reset.halted = false
    ∧ State.reset.lastOutcome = .none ∧ (∀ e : ErrorCond, e.flag State.reset = false)
    ∧ status State.reset = 0x00000000

/-- The power-on reset leaves in every state what RESET leaves (R240), with no word sent before it on the channel: the words
the host sends after it are all there is, and the first command they spell is the first executed (R242; as an action of
the host with a response, log 11). -/
def Obligations.PowerOnRunsTheResetSequence : Prop :=
  (∀ s : State, ∃ t, exec .reset s = .next t ∧ hostAct .powerOn s = { t with inbox := [] })
    ∧ ∀ (s : State) (ws : List Word),
        let u := ws.foldl (fun s w => hostAct (.send w) s) (hostAct .powerOn s)
        u = { hostAct .powerOn s with inbox := ws }
          ∧ ∀ (i : Instr) (rest : List Word), decode ws = .command i rest →
              step u = exec i { hostAct .powerOn s with inbox := rest }

/-- CONFIG in an unconfigured, running block always completes: a geometry that fits is loaded, every active DPB byte
takes FILL and CFG_VALID is set; any other halts the block with ERR_CONFIG. Nothing else changes (R192, R193, R215). -/
def Obligations.ConfigLoadsAFittingGeometryOrHalts : Prop :=
  ∀ (S D size : Word) (fill : Byte) (s : State), s.halted = false → s.cfgValid = false →
    ∃ t, exec (.config S D size fill) s = .next t
      ∧ if 239 * S.toNat + D.toNat + 45 ≤ size.toNat ∧ size.toNat ≤ Config.maxBufBytes then
          t = { s with
            cfgS := S, cfgD := D, cfgBufSize := size, cfgFill := fill, cfgValid := true
            dpb := t.dpb, outbox := s.outbox ++ [status t] }
          ∧ (∀ a < size.toNat, t.dpb.read? a = some fill)
          ∧ (∀ a, size.toNat ≤ a → t.dpb.read? a = s.dpb.read? a)
        else t = { s with errConfig := true, halted := true, outbox := s.outbox ++ [status t] }

/-- The same for every capacity the open parameter MAX_BUF_BYTES may have: CONFIG is `configure` at that capacity, and
`configure` loads a geometry that fits it (R8, R192, R193). -/
def Obligations.ConfigLoadsForEveryCapacity : Prop :=
  (∀ (S D size : Word) (fill : Byte) (s : State),
      exec (.config S D size fill) s = configure Config.maxBufBytes S D size fill s)
    ∧ (∀ (cap : Nat) (S D size : Word) (fill : Byte) (s : State), s.halted = false → s.cfgValid = false →
      239 * S.toNat + D.toNat + 45 ≤ size.toNat → size.toNat ≤ cap →
        ∃ t, configure cap S D size fill s = .next t
          ∧ t = { s with
              cfgS := S, cfgD := D, cfgBufSize := size, cfgFill := fill, cfgValid := true
              dpb := t.dpb, outbox := s.outbox ++ [status t] }
          ∧ (∀ a < size.toNat, t.dpb.read? a = some fill)
          ∧ (∀ a, size.toNat ≤ a → t.dpb.read? a = s.dpb.read? a))

/-! ### Scanline Accumulator -/

/-- WRITE_SCANLINE of a legal row in a configured, running block: every cell of the row takes its two payload bits, the
row is marked valid, every other cell and flag and everything else stays (R100, R76). -/
def Obligations.WriteScanlineStoresTheRow : Prop :=
  ∀ (row : BitVec 8) (payload : List Word) (s : State), s.halted = false → s.cfgValid = true → row.toNat < 144 →
    payload.length = 10 →
    ∃ t, exec (.writeScanline row payload) s = .next t
      ∧ t = { s with plane := t.plane, rowValid := t.rowValid, outbox := s.outbox ++ [status t] }
      ∧ (∀ x < 160, planeCell t row.toNat x = (payload.getD (x / 16) 0).extractLsb' (2 * (x % 16)) 2)
      ∧ (∀ y x, y ≠ row.toNat → x < 160 → t.plane.read? (planeKey y x) = s.plane.read? (planeKey y x))
      ∧ (∀ y < 144, t.rowValid.getLsbD y = (s.rowValid.getLsbD y || decide (y = row.toNat)))

/-- ROWS_VALID goes up by 1 if the row was not valid, and is unchanged otherwise (R100). -/
def Obligations.WriteScanlineCountsANewRowOnce : Prop :=
  ∀ (row : BitVec 8) (payload : List Word) (s t : State), s.halted = false → s.cfgValid = true → row.toNat < 144 →
    exec (.writeScanline row payload) s = .next t →
      rowsValid t = rowsValid s + if s.rowValid.getLsbD row.toNat then 0 else 1

/-- A row index of 144 to 255: the scanline is rejected with ERR_MALFORMED and nothing is written (R101). -/
def Obligations.MalformedRowIsRejected : Prop :=
  ∀ (row : BitVec 8) (payload : List Word) (s : State), s.halted = false → s.cfgValid = true → 144 ≤ row.toNat →
    exec (.writeScanline row payload) s
      = .next { s with
          errMalformed := true
          outbox := s.outbox ++ [status { s with errMalformed := true }] }

/-- Rows may come in any order, and a row written twice keeps the second payload (R102). -/
def Obligations.RowsMayComeInAnyOrder : Prop :=
  ∀ (r q : BitVec 8) (p p' : List Word) (s a b c d : State), s.halted = false → s.cfgValid = true →
    r.toNat < 144 → q.toNat < 144 →
    exec (.writeScanline r p) s = .next a → exec (.writeScanline q p') a = .next b →
    exec (.writeScanline q p') s = .next c → exec (.writeScanline r p) c = .next d →
      b.rowValid = d.rowValid
        ∧ (if r = q then ∀ y x, x < 160 → b.plane.read? (planeKey y x) = c.plane.read? (planeKey y x)
          else ∀ y x, x < 160 → b.plane.read? (planeKey y x) = d.plane.read? (planeKey y x))

/-! ### Frame Gate and FRAME_COMPLETE -/

/-- GateStep (R121). -/
def Obligations.GateStepVerdicts : Prop :=
  ∀ n ctr : BitVec 8,
    gateStep false n ctr = (.compositeNow, 0)
      ∧ (ctr = 0 → gateStep true n ctr = (.compositeNow, if n = 0 then 0 else n - 1))
      ∧ (ctr ≠ 0 → gateStep true n ctr = (.drop, ctr - 1) ∧ (ctr - 1).toNat + 1 = ctr.toNat)

/-- With K = 1 and N constant, from counter 0 frame j composites exactly when N divides j (N = 0 as N = 1), and any N
consecutive frames of a countdown hold exactly one CompositeNow (R123). -/
def Obligations.OneOfEveryNFramesComposites : Prop :=
  (∀ (n : BitVec 8) (m j : Nat), j < m →
      (gateVerdicts n m 0)[j]? = some (if j % max n.toNat 1 = 0 then .compositeNow else .drop))
    ∧ (∀ n ctr : BitVec 8, ctr.toNat < max n.toNat 1 →
      (gateVerdicts n (max n.toNat 1) ctr).countP (fun v => v == .compositeNow) = 1)

/-- FRAME_COMPLETE before all 144 rows: ERR_INCOMPLETE, LAST_OUTCOME DROPPED, ROW_VALID cleared, the gate not consulted,
DPB, OUT and PLANE untouched (R122). -/
def Obligations.IncompleteFrameIsDropped : Prop :=
  ∀ (k : Bool) (n : BitVec 8) (s : State), s.halted = false → s.cfgValid = true → rowsValid s < 144 →
    ∃ t, exec (.frameComplete k n) s = .next t
      ∧ t = { s with
          errIncomplete := true, lastOutcome := .dropped, rowValid := 0
          outbox := s.outbox ++ [status t] }

/-- A complete frame the gate drops: the counter goes down by 1, LAST_OUTCOME DROPPED, ROW_VALID cleared, and no work
beyond that: DPB, OUT and PLANE untouched (R120, R121). -/
def Obligations.GateDropsTheFrame : Prop :=
  ∀ (n : BitVec 8) (s : State), s.halted = false → s.cfgValid = true → rowsValid s = 144 → s.skipCtr ≠ 0 →
    ∃ t, exec (.frameComplete true n) s = .next t
      ∧ t = { s with
          skipCtr := s.skipCtr - 1, lastOutcome := .dropped, rowValid := 0
          outbox := s.outbox ++ [status t] }

/-- A complete frame that composites and whose flush succeeds: DPB is the compose pass of PLANE over the old DPB, OUT
takes every active DPB byte (one that another agent writes meanwhile aside, R247), the counter is reloaded, LAST_OUTCOME
COMPOSITED, ROW_VALID cleared, PLANE and everything else untouched (R120, R180). Two clauses are the model's choice and no
rule: that OUT from CFG_BUF_SIZE on stays as it was even where another agent writes meanwhile (log 8; R53 and R180 bear on
it), and what becomes of the environment's inputs, the answer and the racing writes used up and the flush counted (log 6,
log 8). -/
def Obligations.FrameIsComposedAndFlushed : Prop :=
  ∀ (k : Bool) (n : BitVec 8) (s : State), s.halted = false → s.cfgValid = true → rowsValid s = 144 →
    k = false ∨ s.skipCtr = 0 → 239 * s.cfgS.toNat + s.cfgD.toNat + 45 ≤ s.cfgBufSize.toNat →
    flushAnswer s = true →
    ∃ t, exec (.frameComplete k n) s = .next t
      ∧ t = { s with
          dpb := t.dpb, out := t.out, lastOutcome := .composited, rowValid := 0
          skipCtr := if k = false ∨ n = 0 then 0 else n - 1
          outbox := s.outbox ++ [status t]
          flushAnswers := s.flushAnswers.tail, rivals := [], draws := s.draws + 1 }
      ∧ t.dpb = composePass Config.params (Config.dpbUnspecified s.ramEpoch) s.cfgS s.cfgD (planeCell s) s.dpb
      ∧ (∀ a < s.cfgBufSize.toNat, (∀ c ∈ s.rivals, c.1 ≠ a) → outByte t a = dpbByte t a)
      ∧ (∀ a, s.cfgBufSize.toNat ≤ a → t.out.read? a = s.out.read? a)

/-- A complete frame that composites and whose flush fails: ERR_FLUSH and HALTED are set, LAST_OUTCOME is NONE, DPB keeps
the composed frame, and nothing is said of the OUT bytes of the buffer (R120, R180, R181, R216). Two clauses are the
model's choice and no rule: that OUT from CFG_BUF_SIZE on stays as it was (log 7, and log 8 for a racing write there; R53
and R180 bear on it), and what becomes of the environment's inputs, the answer and the racing writes used up and the flush
counted (log 6, log 8). -/
def Obligations.FailedFlushHalts : Prop :=
  ∀ (k : Bool) (n : BitVec 8) (s : State), s.halted = false → s.cfgValid = true → rowsValid s = 144 →
    k = false ∨ s.skipCtr = 0 → 239 * s.cfgS.toNat + s.cfgD.toNat + 45 ≤ s.cfgBufSize.toNat →
    flushAnswer s = false →
    ∃ t, exec (.frameComplete k n) s = .next t
      ∧ t = { s with
          dpb := t.dpb, out := t.out, lastOutcome := .none, rowValid := 0
          errFlush := true, halted := true
          skipCtr := if k = false ∨ n = 0 then 0 else n - 1
          outbox := s.outbox ++ [status t]
          flushAnswers := s.flushAnswers.tail, rivals := [], draws := s.draws + 1 }
      ∧ t.dpb = composePass Config.params (Config.dpbUnspecified s.ramEpoch) s.cfgS s.cfgD (planeCell s) s.dpb
      ∧ (∀ a, s.cfgBufSize.toNat ≤ a → t.out.read? a = s.out.read? a)

/-- A composited frame whose flush succeeds, from a state that meets the invariant: a byte outside the image holds CFG_FILL
in DPB before it and after it, and in OUT after it: the flush copies the margins, the unvisited scanlines and the bytes
between scanlines too (R26, R167, R182). A byte another agent writes meanwhile is left aside (log 8). -/
def Obligations.FlushCopiesTheFillOutsideTheImage : Prop :=
  ∀ (k : Bool) (n : BitVec 8) (s : State) (a : Nat), BlockInv s → s.halted = false → s.cfgValid = true →
    rowsValid s = 144 → k = false ∨ s.skipCtr = 0 → flushAnswer s = true → (∀ c ∈ s.rivals, c.1 ≠ a) →
    a < s.cfgBufSize.toNat → ¬ ImageByte s.cfgS s.cfgD a →
    ∃ t, exec (.frameComplete k n) s = .next t
      ∧ s.dpb.read? a = some s.cfgFill ∧ t.dpb.read? a = some s.cfgFill ∧ outByte t a = s.cfgFill

/-- A byte of OUT that another agent writes while a flush succeeds ends with the flushed value or with one of that
agent's (R247; log 8). -/
def Obligations.RacingWriteEndsWithEitherValue : Prop :=
  ∀ (s : State) (a : Nat), a < s.cfgBufSize.toNat →
    outByte (flushDone s) a = dpbByte s a ∨ ∃ v, (a, v) ∈ s.rivals ∧ outByte (flushDone s) a = v

/-! ### Who writes what -/

/-- PLANE changes only in WRITE_SCANLINE, DPB only in CONFIG and FRAME_COMPLETE, OUT only in FRAME_COMPLETE; RESET, which
leaves PLANE and DPB unspecified, aside (R22, R26, R50, R53). -/
def Obligations.EachMemoryHasItsWriters : Prop :=
  ∀ (i : Instr) (s t : State), exec i s = .next t →
    (t.plane ≠ s.plane → i = .reset ∨ ∃ row payload, i = .writeScanline row payload)
      ∧ (t.dpb ≠ s.dpb →
          i = .reset ∨ (∃ S D size fill, i = .config S D size fill) ∨ ∃ k n, i = .frameComplete k n)
      ∧ (t.out ≠ s.out → ∃ k n, i = .frameComplete k n)

/-- Only CONFIG writes the configuration registers, once per reset; only FRAME_COMPLETE writes SKIP_CTR; only
WRITE_SCANLINE and FRAME_COMPLETE write ROW_VALID; RESET aside (R23, R25, R27). -/
def Obligations.EachRegisterHasItsWriters : Prop :=
  ∀ (i : Instr) (s t : State), exec i s = .next t →
    ((t.cfgS, t.cfgD, t.cfgBufSize, t.cfgFill, t.cfgValid) ≠ (s.cfgS, s.cfgD, s.cfgBufSize, s.cfgFill, s.cfgValid) →
        i = .reset ∨ (s.cfgValid = false ∧ ∃ S D size fill, i = .config S D size fill))
      ∧ (t.skipCtr ≠ s.skipCtr → i = .reset ∨ ∃ k n, i = .frameComplete k n)
      ∧ (t.rowValid ≠ s.rowValid →
          i = .reset ∨ (∃ row payload, i = .writeScanline row payload) ∨ ∃ k n, i = .frameComplete k n)

/-! ### The invariant -/

/-- The invariant holds right after reset. -/
def Obligations.InvariantHoldsAtReset : Prop := BlockInv State.reset

/-- Every step keeps the invariant. -/
def Obligations.StepKeepsTheInvariant : Prop := ∀ s t : State, BlockInv s → step s = .next t → BlockInv t

/-- From a state that meets the invariant the machine never stops: the compose pass forms no address outside the
buffer (R52), and no command is without a next state. -/
def Obligations.InvariantRulesOutEveryStop : Prop := ∀ s : State, BlockInv s → ∃ t, step s = .next t

/-- Nothing the host or the environment does breaks the invariant (R230). -/
def Obligations.HostKeepsTheInvariant : Prop := ∀ (h : HostAction) (s : State), BlockInv s → BlockInv (hostAct h s)

/-! ### Scale Mapper -/

/-- RowPos in closed form, its trigger, its extent and the parity it gives (R141, R143). -/
def Obligations.RowPositionClosedForm : Prop :=
  (∀ y : Nat, y * 2 % 6 = 0 ↔ y % 3 = 0)
    ∧ (∀ y < 144, rowPos y = 5 * (y / 3) + 2 * (y % 3) ∧ rowPos y ≤ 239)
    ∧ rowPos 143 = 239
    ∧ (List.range 144).countP (fun y => rowAcc (y + 1) == rowAcc y + 1) = 48
    ∧ (List.range 144).countP (fun y => rowAcc (y + 1) == rowAcc y + 2) = 96
    ∧ (∀ y < 144, rowParity (rowPos y) = BitVec.ofNat 1 (y / 3))

/-- ROW_LUT as printed is RowPos, and is strictly increasing (R142). -/
def Obligations.RowLutIsTheRowPositions : Prop :=
  rowLut.length = 144 ∧ (∀ y < 144, rowLut[y]? = some (rowPos y)) ∧ rowLut.Pairwise (· < ·)

/-- The positions visited are those with `yy mod 5` in 0, 2, 4, each by one row, and 96 are not visited (R148). -/
def Obligations.VisitedPositions : Prop :=
  (∀ yy : Nat, (∃ y < 144, rowPos y = yy) ↔ yy < 240 ∧ (yy % 5 = 0 ∨ yy % 5 = 2 ∨ yy % 5 = 4))
    ∧ (∀ y < 144, ∀ z < 144, rowPos y = rowPos z → y = z)

/-- COL_MAP covers [40, 360), each column exactly once, the left column even (R144). -/
def Obligations.ColumnsCoverTheImageOnce : Prop :=
  (∀ c : Nat, 40 ≤ c ∧ c < 360 ↔ ∃ x < 160, c = colL x ∨ c = colR x)
    ∧ (∀ x < 160, ∀ x' < 160, (colL x = colL x' → x = x') ∧ (colR x = colR x' → x = x') ∧ colL x ≠ colR x')
    ∧ (∀ x : Nat, colL x = 40 + 2 * x ∧ colR x = 41 + 2 * x ∧ colL x % 2 = 0)

/-- Both columns of a sample fall in byte `5 + x div 4` of the scanline, at the bits of `xx & 7` = `2 (x mod 4)` and one
more, under either bit order (R54, R146). -/
def Obligations.PixelAddressesOfASample : Prop :=
  ∀ base x : Nat, x < 160 →
    pixelByte base (colL x) = base + (5 + x / 4) ∧ pixelByte base (colR x) = base + (5 + x / 4)
      ∧ pixelBit .lsbFirst (colL x) = 2 * (x % 4) ∧ pixelBit .lsbFirst (colR x) = 2 * (x % 4) + 1
      ∧ pixelBit .msbFirst (colL x) = 7 - 2 * (x % 4) ∧ pixelBit .msbFirst (colR x) = 6 - 2 * (x % 4)

/-- GeometryFits is exactly that every byte the compose pass writes is inside the buffer and the buffer inside the RAM
(R147). -/
def Obligations.GeometryFitsIsExact : Prop :=
  ∀ (cap : Nat) (S D size : Word),
    geometryFits cap S D size = true ↔
      (∀ y < 144, ∀ x < 160,
          pixelByte (primBase S (rowPos y)) (colL x) < size.toNat
            ∧ pixelByte (primBase S (rowPos y)) (colR x) < size.toNat
            ∧ pixelByte (secBase S D (rowPos y)) (colL x) < size.toNat
            ∧ pixelByte (secBase S D (rowPos y)) (colR x) < size.toNat)
        ∧ size.toNat ≤ cap

/-- With the source's literals 400 and 52 no two scanlines share a byte; with one stride L ≥ 45 the secondary row of
position 5k+4 is the primary row of the next position (R148, R149). -/
def Obligations.AliasingOfTwoGeometries : Prop :=
  NonAliasing 400 52
    ∧ ∀ (L : Word) (k : Nat), 45 ≤ L.toNat → k < 47 →
        secBase L L (rowPos (3 * k + 2)) = primBase L (rowPos (3 * k + 3)) ∧ ¬ NonAliasing L L

/-- Which geometries alias: a stride of at most 39, or a delta within 39 of a multiple of the stride by a difference of
visited positions, 0 among them (R149). -/
def Obligations.AliasingCases : Prop :=
  ∀ S D : Word, NonAliasing S D ↔
    40 ≤ S.toNat ∧ ∀ y < 144, ∀ z < 144,
      40 ≤ ((D.toNat : Int) - ((rowPos y : Int) - (rowPos z : Int)) * (S.toNat : Int)).natAbs

/-! ### Ditherer and compose pass -/

/-- The pattern table, by gray level and `q = p ^ DITHER_PHASE` (R161). -/
def Obligations.DitherTable : Prop :=
  ∀ phase p : BitVec 1,
    dither phase 0 p = ⟨true, true, true, true⟩
      ∧ (p ^^^ phase = 0 → dither phase 1 p = ⟨true, false, false, true⟩)
      ∧ (p ^^^ phase = 1 → dither phase 1 p = ⟨false, true, true, false⟩)
      ∧ (p ^^^ phase = 0 → dither phase 2 p = ⟨false, true, true, false⟩)
      ∧ (p ^^^ phase = 1 → dither phase 2 p = ⟨true, false, false, true⟩)
      ∧ dither phase 3 p = ⟨false, false, false, false⟩

/-- Levels 1 and 2: two of four lit, the secondary scanline the mirror of the primary, another pattern for the other
parity, level 2 is level 1 with the scanlines' roles swapped, that is at the other parity, and DITHER_PHASE = 0 lights
the left column of the primary scanline for level 1 at parity 0 (R163). -/
def Obligations.MiddleLevelsMirrorAndSwap : Prop :=
  (∀ phase : BitVec 1, (dither phase 1 0).pl = decide (phase = 0)) ∧
  ∀ (phase p : BitVec 1) (g : Gray), g = 1 ∨ g = 2 →
    [(dither phase g p).pl, (dither phase g p).pr, (dither phase g p).sl, (dither phase g p).sr].count true = 2
      ∧ (dither phase g p).pl = !(dither phase g p).pr
      ∧ (dither phase g p).sl = (dither phase g p).pr ∧ (dither phase g p).sr = (dither phase g p).pl
      ∧ dither phase g p ≠ dither phase g (p ^^^ 1)
      ∧ dither phase 2 p = dither phase 1 (p ^^^ 1)
      ∧ (dither phase 2 p).pl = (dither phase 1 p).sl ∧ (dither phase 2 p).pr = (dither phase 1 p).sr

/-- SetBit writes the one bit and keeps the other seven of its byte and every other byte (R165). -/
def Obligations.SetBitWritesOneBit : Prop :=
  ∀ (o : BitOrder) (back : Nat → Byte) (m : Memory Byte) (base xx : Nat) (v : Bool),
    (∀ a, a ≠ base + xx / 8 → (setBit o back m base xx v).read? a = m.read? a)
      ∧ (∀ b < 8, (memByte back (setBit o back m base xx v) (base + xx / 8)).getLsbD b
          = if b = pixelBit o xx then v else (memByte back m (base + xx / 8)).getLsbD b)

/-- The compose pass changes no byte but bytes 5 to 44 of the scanlines of visited positions: the margins, the unvisited
scanlines and the bytes between keep their content (R167). -/
def Obligations.ComposeWritesImageBytesOnly : Prop :=
  ∀ (P : Params) (back : Nat → Byte) (S D : Word) (cell : Nat → Nat → Gray) (m : Memory Byte) (a : Nat),
    ¬ ImageByte S D a → (composePass P back S D cell m).read? a = m.read? a

/-- In a geometry whose scanlines do not alias, after the pass the four device bits of every sample are its pattern
(R146, R161, R164). -/
def Obligations.ComposeDrawsEverySample : Prop :=
  ∀ (P : Params) (back : Nat → Byte) (S D : Word) (cell : Nat → Nat → Gray) (m : Memory Byte), NonAliasing S D →
    ∀ y < 144, ∀ x < 160,
      let d := composePass P back S D cell m
      let yy := rowPos y
      let t := dither P.ditherPhase (cell y x) (rowParity yy)
      deviceBit P.bitOrder back d (primBase S yy) (colL x) = t.pl
        ∧ deviceBit P.bitOrder back d (primBase S yy) (colR x) = t.pr
        ∧ deviceBit P.bitOrder back d (secBase S D yy) (colL x) = t.sl
        ∧ deviceBit P.bitOrder back d (secBase S D yy) (colR x) = t.sr

/-- In any geometry, aliasing ones included, the image bytes after the pass are determined by the plane: they do not
depend on what DPB held before (R165, R168). -/
def Obligations.ImageBytesDependOnThePlaneOnly : Prop :=
  ∀ (P : Params) (back back' : Nat → Byte) (S D : Word) (cell : Nat → Nat → Gray) (m m' : Memory Byte) (a : Nat),
    ImageByte S D a →
      (composePass P back S D cell m).read? a = (composePass P back' S D cell m').read? a

/-- Composing the same plane twice gives the same DPB, byte for byte, in any geometry (R168). -/
def Obligations.ComposeIsIdempotent : Prop :=
  ∀ (P : Params) (back : Nat → Byte) (S D : Word) (cell : Nat → Nat → Gray) (m : Memory Byte) (a : Nat),
    (composePass P back S D cell (composePass P back S D cell m)).read? a = (composePass P back S D cell m).read? a

/-- The compose order, in any geometry: a write that no later write of the order shares its device bit with leaves its
value there, the order being y, then x, then PL, PR, SL, SR; and every write is followed, at its own place or later, by
such a last one at its bit. With S = D = 0, where every row writes the same bits, what is left is the secondary pattern of
row 143 (R149, R166, vector V-M11). -/
def Obligations.LastWriteOfTheComposeOrderStays : Prop :=
  (∀ (P : Params) (back : Nat → Byte) (S D : Word) (cell : Nat → Nat → Gray) (m : Memory Byte),
    ∀ y < 144, ∀ x < 160, ∀ sec right : Bool,
      (∀ y' < 144, ∀ x' < 160, ∀ sec' right' : Bool, writeNumber y x sec right < writeNumber y' x' sec' right' →
        ¬ SameDeviceBit P.bitOrder (scanBase S D sec (rowPos y)) (column right x)
            (scanBase S D sec' (rowPos y')) (column right' x')) →
      deviceBit P.bitOrder back (composePass P back S D cell m) (scanBase S D sec (rowPos y)) (column right x)
        = (dither P.ditherPhase (cell y x) (rowParity (rowPos y))).bit sec right)
  ∧ (∀ (o : BitOrder) (S D : Word), ∀ y < 144, ∀ x < 160, ∀ sec right : Bool,
      ∃ y' < 144, ∃ x' < 160, ∃ sec' right' : Bool,
        writeNumber y x sec right ≤ writeNumber y' x' sec' right'
          ∧ SameDeviceBit o (scanBase S D sec (rowPos y)) (column right x)
              (scanBase S D sec' (rowPos y')) (column right' x')
          ∧ ∀ y'' < 144, ∀ x'' < 160, ∀ sec'' right'' : Bool,
              writeNumber y' x' sec' right' < writeNumber y'' x'' sec'' right'' →
              ¬ SameDeviceBit o (scanBase S D sec' (rowPos y')) (column right' x')
                  (scanBase S D sec'' (rowPos y'')) (column right'' x''))
  ∧ (∀ (P : Params) (back : Nat → Byte) (cell : Nat → Nat → Gray) (m : Memory Byte), ∀ x < 160,
      let d := composePass P back 0 0 cell m
      let t := dither P.ditherPhase (cell 143 x) 1
      deviceBit P.bitOrder back d 0 (colL x) = t.sl ∧ deviceBit P.bitOrder back d 0 (colR x) = t.sr)

/-- The end-to-end scenario: an all-white plane turns every image byte to 0xFF, whatever the bit order, the dither phase
and the geometry (R162, vector V-E1). -/
def Obligations.WhiteFrameLightsEveryImageByte : Prop :=
  ∀ (P : Params) (back : Nat → Byte) (S D : Word) (cell : Nat → Nat → Gray) (m : Memory Byte) (a : Nat),
    (∀ y < 144, ∀ x < 160, cell y x = 0) → ImageByte S D a →
      (composePass P back S D cell m).read? a = some 0xFF
end

