-- ==== Sys2Proof/Laws/Memory.lean ====
section
/-! SUPPORT. What reads, single writes and range writes do to each other, and that writes keep the canonical form. -/

namespace Sys2Proof.Memory

variable {α : Type}

@[simp] theorem read?_nil (a : Nat) : Memory.read? ([] : Memory α) a = none := rfl

theorem read?_cons (b : Nat) (v : α) (m : Memory α) (a : Nat) :
    Memory.read? ((b, v) :: m) a = if b = a then some v else Memory.read? m a := rfl

/-- A read after a write: the value written there, everything else as before. -/
theorem read?_write (m : Memory α) (a : Nat) (v : α) (b : Nat) :
    (m.write a v).read? b = if b = a then some v else m.read? b := by
  induction m with
  | nil => simp [write, read?_cons, eq_comm]
  | cons c m ih =>
    obtain ⟨k, w⟩ := c
    unfold write
    split
    · grind [read?_cons]
    · split <;> grind [read?_cons]

theorem read?_append (m n : Memory α) (a : Nat) :
    Memory.read? (m ++ n) a = (m.read? a).or (Memory.read? n a) := by
  induction m with
  | nil => simp
  | cons c m ih =>
    obtain ⟨k, w⟩ := c
    rw [List.cons_append, read?_cons, read?_cons]
    split
    · rfl
    · exact ih

theorem read?_filter (m : Memory α) (p : Nat → Bool) (a : Nat) :
    Memory.read? (m.filter fun c => p c.1) a = if p a then m.read? a else none := by
  induction m with
  | nil => simp
  | cons c m ih =>
    obtain ⟨k, w⟩ := c
    rw [List.filter_cons, read?_cons]
    grind [read?_cons]

theorem read?_fill (base n : Nat) (f : Nat → α) (a : Nat) :
    Memory.read? ((List.range n).map fun i => (base + i, f i)) a
      = if base ≤ a ∧ a < base + n then some (f (a - base)) else none := by
  induction n with
  | zero => simp
  | succ n ih =>
    rw [List.range_succ, List.map_append, read?_append, ih]
    simp only [List.map_cons, List.map_nil, read?_cons, read?_nil]
    by_cases h : a = base + n
    · subst h; simp
    · grind

/-- A read after a range write: the value written inside the range, everything else as before. -/
theorem read?_writeRange (m : Memory α) (base n : Nat) (f : Nat → α) (a : Nat) :
    (m.writeRange base n f).read? a
      = if base ≤ a ∧ a < base + n then some (f (a - base)) else m.read? a := by
  unfold writeRange
  rw [read?_append, read?_append, read?_fill, read?_filter m (fun k => decide (k < base)),
    read?_filter m (fun k => decide (base + n ≤ k))]
  by_cases h1 : a < base
  · have : ¬ base + n ≤ a := by omega
    have : ¬ base ≤ a := by omega
    simp [*]
  · by_cases h2 : a < base + n
    · have : base ≤ a := by omega
      simp [*]
    · have : base + n ≤ a := by omega
      simp [*]

/-- The places of a written memory are the written one and the old ones. -/
theorem mem_write {m : Memory α} {a : Nat} {v : α} {c : Nat × α} (h : c ∈ m.write a v) : c.1 = a ∨ c ∈ m := by
  induction m with
  | nil => simp only [write, List.mem_singleton] at h; simp [h]
  | cons d m ih =>
    obtain ⟨k, w⟩ := d
    unfold write at h
    split at h
    · grind
    · split at h <;> grind

/-- The places of a range-written memory are those of the range and the old ones outside it. -/
theorem mem_writeRange {m : Memory α} {base n : Nat} {f : Nat → α} {c : Nat × α}
    (h : c ∈ m.writeRange base n f) : (base ≤ c.1 ∧ c.1 < base + n) ∨ c ∈ m := by
  simp only [writeRange, List.mem_append, List.mem_filter, List.mem_map, List.mem_range] at h
  obtain (⟨h, _⟩ | ⟨i, hi, rfl⟩) | ⟨h, _⟩ := h
  · exact .inr h
  · exact .inl ⟨by simp, by simpa using hi⟩
  · exact .inr h

/-- A write keeps the canonical form. -/
theorem wf_write {m : Memory α} (h : m.wf) (a : Nat) (v : α) : (m.write a v).wf := by
  induction m with
  | nil => simp [write, wf]
  | cons d m ih =>
    obtain ⟨k, w⟩ := d
    have hd := List.pairwise_cons.1 h
    unfold write
    split
    next hak =>
      refine List.pairwise_cons.2 ⟨fun c hc => ?_, h⟩
      rcases List.mem_cons.1 hc with rfl | hc
      · exact hak
      · exact lt_trans hak (hd.1 c hc)
    next hak =>
      split
      next hka =>
        subst hka
        exact List.pairwise_cons.2 ⟨hd.1, hd.2⟩
      next hka =>
        refine List.pairwise_cons.2 ⟨fun c hc => ?_, ih hd.2⟩
        rcases mem_write hc with hc | hc
        · show k < c.1; omega
        · exact hd.1 c hc

/-- A range write keeps the canonical form. -/
theorem wf_writeRange {m : Memory α} (h : m.wf) (base n : Nat) (f : Nat → α) : (m.writeRange base n f).wf := by
  unfold writeRange wf
  rw [List.pairwise_append, List.pairwise_append]
  refine ⟨⟨h.filter _, ?_, ?_⟩, h.filter _, ?_⟩
  · rw [List.pairwise_map]
    exact List.pairwise_lt_range.imp fun h => by simpa using h
  · intro c hc d hd
    simp only [List.mem_filter, List.mem_map, List.mem_range, decide_eq_true_eq] at hc hd
    obtain ⟨i, _, rfl⟩ := hd
    show c.1 < base + i
    omega
  · intro c hc d hd
    simp only [List.mem_append, List.mem_filter, List.mem_map, List.mem_range, decide_eq_true_eq] at hc hd
    rcases hc with hc | ⟨i, hi, rfl⟩
    · omega
    · show base + i < d.1; omega

theorem read?_isSome_iff {m : Memory α} {a : Nat} : (m.read? a).isSome ↔ ∃ c ∈ m, c.1 = a := by
  induction m with
  | nil => simp
  | cons d m ih =>
    obtain ⟨k, w⟩ := d
    rw [read?_cons]
    by_cases h : k = a <;> simp_all

theorem read?_of_lt {m : Memory α} {a : Nat} (h : ∀ c ∈ m, a < c.1) : m.read? a = none := by
  have : ¬ (m.read? a).isSome := by
    rw [read?_isSome_iff]
    rintro ⟨c, hc, rfl⟩
    exact lt_irrefl _ (h c hc)
  simpa using this

/-- Two canonical memories that read the same everywhere are the same data. -/
theorem ext_read? {m n : Memory α} (hm : m.wf) (hn : n.wf) (h : ∀ a, m.read? a = n.read? a) : m = n := by
  induction m generalizing n with
  | nil =>
    cases n with
    | nil => rfl
    | cons d n =>
      obtain ⟨k, w⟩ := d
      have := h k
      simp [read?_cons] at this
  | cons c m ih =>
    obtain ⟨k, v⟩ := c
    have hc := List.pairwise_cons.1 hm
    cases n with
    | nil => have := h k; simp [read?_cons] at this
    | cons d n =>
      obtain ⟨l, w⟩ := d
      have hd := List.pairwise_cons.1 hn
      have hkl : k = l := by
        have h1 := h k
        have h2 := h l
        rw [read?_cons, read?_cons] at h1 h2
        by_contra hne
        rcases Nat.lt_or_gt_of_ne hne with hlt | hlt
        · have : Memory.read? n k = none := read?_of_lt fun c hc => lt_trans hlt (hd.1 c hc)
          simp [this, Ne.symm hne] at h1
        · have : Memory.read? m l = none := read?_of_lt fun c hc' => lt_trans hlt (hc.1 c hc')
          simp [this, hne] at h2
      subst hkl
      have hvw : v = w := by simpa [read?_cons] using h k
      subst hvw
      congr 1
      refine ih hc.2 hd.2 fun a => ?_
      by_cases hka : a = k
      · subst hka
        rw [read?_of_lt hc.1, read?_of_lt hd.1]
      · have := h a
        simpa [read?_cons, Ne.symm hka] using this

end Sys2Proof.Memory
end

