-- ==== Sys2Proof/Laws/Compose.lean ====
section
/-! SUPPORT. The compose pass as the list of the bit writes it makes, in its order, and what a list of bit writes does to
one device bit: the last write there stays. -/

namespace Sys2Proof.Machine

/-! ### One bit write -/

/-- A device bit that the pass writes: byte address, bit in the byte, value. -/
structure BitWrite where
  addr : Nat
  bit : Nat
  val : Bool
  deriving DecidableEq, Repr

/-- One bit write on a DPB whose unspecified bytes hold `back`. -/
def BitWrite.put (back : Nat → Byte) (m : Memory Byte) (w : BitWrite) : Memory Byte :=
  m.write w.addr (putBit (memByte back m w.addr) w.bit w.val)

/-- SetBit is the bit write at its pixel address. -/
theorem setBit_eq_put (o : BitOrder) (back : Nat → Byte) (m : Memory Byte) (base xx : Nat) (v : Bool) :
    setBit o back m base xx v = BitWrite.put back m ⟨pixelByte base xx, pixelBit o xx, v⟩ := rfl

theorem pixelBit_lt (o : BitOrder) (xx : Nat) : pixelBit o xx < 8 := by
  cases o <;> simp only [pixelBit] <;> omega

/-- PutBit sets bit `b` to `v` and keeps every other bit. -/
theorem getLsbD_putBit (x : Byte) (b : Nat) (v : Bool) (c : Nat) (hb : b < 8) (hc : c < 8) :
    (putBit x b v).getLsbD c = if c = b then v else x.getLsbD c := by
  have key : ∀ (b c : Fin 8) (v : Bool),
      ((1 : Byte) <<< b.val).getLsbD c.val = decide (c.val = b.val) ∧
      ((BitVec.ofBool v).setWidth 8 <<< b.val).getLsbD c.val = (decide (c.val = b.val) && v) := by decide
  obtain ⟨h1, h2⟩ := key ⟨b, hb⟩ ⟨c, hc⟩ v
  simp only at h1 h2
  unfold putBit
  rw [BitVec.getLsbD_or, BitVec.getLsbD_and, BitVec.getLsbD_not, h1, h2]
  by_cases h : c = b <;> simp [h, hc]

theorem read?_put (back : Nat → Byte) (m : Memory Byte) (w : BitWrite) (a : Nat) :
    (w.put back m).read? a = if a = w.addr then some (putBit (memByte back m w.addr) w.bit w.val) else m.read? a :=
  Memory.read?_write ..

theorem memByte_put (back : Nat → Byte) (m : Memory Byte) (w : BitWrite) (a : Nat) :
    memByte back (w.put back m) a
      = if a = w.addr then putBit (memByte back m w.addr) w.bit w.val else memByte back m a := by
  rw [memByte, read?_put]
  split <;> rfl

/-- What a bit write does to a device bit. -/
theorem getLsbD_put (back : Nat → Byte) (m : Memory Byte) (w : BitWrite) (hw : w.bit < 8) (a b : Nat) (hb : b < 8) :
    (memByte back (w.put back m) a).getLsbD b
      = if a = w.addr ∧ b = w.bit then w.val else (memByte back m a).getLsbD b := by
  rw [memByte_put]
  by_cases h : a = w.addr
  · subst h
    simp [getLsbD_putBit _ _ _ _ hw hb]
  · simp [h]

/-! ### A list of bit writes -/

/-- A list of bit writes, in order. -/
def putAll (back : Nat → Byte) (ws : List BitWrite) (m : Memory Byte) : Memory Byte :=
  ws.foldl (BitWrite.put back) m

/-- The value the list leaves at a device bit, none where it does not write it. -/
def lastWrite (a b : Nat) : List BitWrite → Option Bool
  | [] => none
  | w :: ws => (lastWrite a b ws).or (if a = w.addr ∧ b = w.bit then some w.val else none)

theorem lastWrite_append (a b : Nat) (us ws : List BitWrite) :
    lastWrite a b (us ++ ws) = (lastWrite a b ws).or (lastWrite a b us) := by
  induction us with
  | nil => simp [lastWrite]
  | cons u us ih => rw [List.cons_append, lastWrite, lastWrite, ih, Option.or_assoc]

theorem lastWrite_isSome {a b : Nat} {ws : List BitWrite} (w : BitWrite) (h : w ∈ ws) (ha : w.addr = a)
    (hb : w.bit = b) : (lastWrite a b ws).isSome := by
  induction ws with
  | nil => cases h
  | cons u us ih =>
    rw [lastWrite, Option.isSome_or]
    rcases List.mem_cons.1 h with rfl | h
    · simp [ha, hb]
    · simp [ih h]

theorem lastWrite_mem {a b : Nat} {ws : List BitWrite} {v : Bool} (h : lastWrite a b ws = some v) :
    ∃ w ∈ ws, w.addr = a ∧ w.bit = b ∧ w.val = v := by
  induction ws with
  | nil => cases h
  | cons u us ih =>
    rw [lastWrite, Option.or_eq_some_iff] at h
    rcases h with h | ⟨_, h⟩
    · obtain ⟨w, hw, h⟩ := ih h
      exact ⟨w, List.mem_cons_of_mem _ hw, h⟩
    · split at h
      next hu => exact ⟨u, List.mem_cons_self, hu.1.symm, hu.2.symm, by simpa using h⟩
      next => cases h

/-- Where a bit is written, and every write there has one value, that value stays. -/
theorem lastWrite_eq {a b : Nat} {ws : List BitWrite} {v : Bool} (w : BitWrite) (h : w ∈ ws) (ha : w.addr = a)
    (hb : w.bit = b) (all : ∀ u ∈ ws, u.addr = a → u.bit = b → u.val = v) : lastWrite a b ws = some v := by
  obtain ⟨u, hu⟩ := Option.isSome_iff_exists.1 (lastWrite_isSome w h ha hb)
  obtain ⟨x, hx, h1, h2, h3⟩ := lastWrite_mem hu
  rw [hu, ← h3, all x hx h1 h2]

/-- The device bit a list of writes leaves: the last one written there, else the old one. -/
theorem getLsbD_putAll (back : Nat → Byte) (ws : List BitWrite) (m : Memory Byte) (hw : ∀ w ∈ ws, w.bit < 8)
    (a b : Nat) (hb : b < 8) :
    (memByte back (putAll back ws m) a).getLsbD b = (lastWrite a b ws).getD ((memByte back m a).getLsbD b) := by
  induction ws generalizing m with
  | nil => rfl
  | cons w ws ih =>
    have := ih (w.put back m) fun u hu => hw u (List.mem_cons_of_mem _ hu)
    rw [putAll, List.foldl_cons]
    refine this.trans ?_
    rw [getLsbD_put back m w (hw w List.mem_cons_self) a b hb, lastWrite]
    cases lastWrite a b ws <;> simp
    split <;> simp

/-- A byte no write of the list addresses is not changed. -/
theorem read?_putAll_of_forall_ne (back : Nat → Byte) (ws : List BitWrite) (m : Memory Byte) (a : Nat)
    (h : ∀ w ∈ ws, w.addr ≠ a) : (putAll back ws m).read? a = m.read? a := by
  induction ws generalizing m with
  | nil => rfl
  | cons w ws ih =>
    rw [putAll, List.foldl_cons]
    refine (ih (w.put back m) fun u hu => h u (List.mem_cons_of_mem _ hu)).trans ?_
    rw [read?_put, if_neg (Ne.symm (h w List.mem_cons_self))]

/-- A byte that was listed or that a write addresses is listed afterwards. -/
theorem isSome_read?_putAll (back : Nat → Byte) (ws : List BitWrite) (m : Memory Byte) (a : Nat)
    (h : (m.read? a).isSome ∨ ∃ w ∈ ws, w.addr = a) : ((putAll back ws m).read? a).isSome := by
  induction ws generalizing m with
  | nil => simpa [putAll] using h
  | cons w ws ih =>
    rw [putAll, List.foldl_cons]
    refine ih (w.put back m) ?_
    rw [read?_put]
    by_cases ha : a = w.addr
    · exact .inl (by simp [ha])
    · rw [if_neg ha]
      rcases h with h | ⟨u, hu, rfl⟩
      · exact .inl h
      · rcases List.mem_cons.1 hu with rfl | hu
        · exact absurd rfl ha
        · exact .inr ⟨u, hu, rfl⟩

theorem wf_putAll (back : Nat → Byte) (ws : List BitWrite) {m : Memory Byte} (h : m.wf) : (putAll back ws m).wf := by
  induction ws generalizing m with
  | nil => exact h
  | cons w ws ih => exact ih (Memory.wf_write h _ _)

theorem mem_putAll (back : Nat → Byte) (ws : List BitWrite) {m : Memory Byte} {c : Nat × Byte}
    (h : c ∈ putAll back ws m) : (∃ w ∈ ws, w.addr = c.1) ∨ c ∈ m := by
  induction ws generalizing m with
  | nil => exact .inr h
  | cons w ws ih =>
    rcases ih (m := w.put back m) h with ⟨u, hu, h⟩ | h
    · exact .inl ⟨u, List.mem_cons_of_mem _ hu, h⟩
    · rcases Memory.mem_write h with h | h
      · exact .inl ⟨w, List.mem_cons_self, h.symm⟩
      · exact .inr h

/-! ### The writes of the pass -/

/-- The four writes of a sample, in order (R164, R166). -/
def sampleWrites (P : Params) (S D : Word) (yy : Nat) (g : Gray) (x : Nat) : List BitWrite :=
  let t := dither P.ditherPhase g (rowParity yy)
  [⟨pixelByte (primBase S yy) (colL x), pixelBit P.bitOrder (colL x), t.pl⟩,
    ⟨pixelByte (primBase S yy) (colR x), pixelBit P.bitOrder (colR x), t.pr⟩,
    ⟨pixelByte (secBase S D yy) (colL x), pixelBit P.bitOrder (colL x), t.sl⟩,
    ⟨pixelByte (secBase S D yy) (colR x), pixelBit P.bitOrder (colR x), t.sr⟩]

/-- The writes of a row, x increasing. -/
def rowWrites (P : Params) (S D : Word) (cell : Nat → Nat → Gray) (y : Nat) : List BitWrite :=
  (List.range srcW).flatMap fun x => sampleWrites P S D (rowPos y) (cell y x) x

/-- The writes of the pass, y increasing. -/
def passWrites (P : Params) (S D : Word) (cell : Nat → Nat → Gray) : List BitWrite :=
  (List.range srcH).flatMap fun y => rowWrites P S D cell y

theorem putAll_flatMap {β : Type} (back : Nat → Byte) (f : β → List BitWrite) (l : List β) (m : Memory Byte) :
    putAll back (l.flatMap f) m = l.foldl (fun m b => putAll back (f b) m) m := by
  induction l generalizing m with
  | nil => rfl
  | cons b l ih => rw [List.flatMap_cons, putAll, List.foldl_append, List.foldl_cons]; exact ih _

/-- The pass is its list of writes, in order. -/
theorem composePass_eq_putAll (P : Params) (back : Nat → Byte) (S D : Word) (cell : Nat → Nat → Gray)
    (m : Memory Byte) : composePass P back S D cell m = putAll back (passWrites P S D cell) m := by
  have sample : ∀ y, (fun m x => putAll back (sampleWrites P S D (rowPos y) (cell y x) x) m)
      = fun m x => composeSample P back S D (rowPos y) (cell y x) x m := fun y => by funext m x; rfl
  have row : (fun m y => putAll back (rowWrites P S D cell y) m) = composeRow P back S D cell := by
    funext m y
    rw [rowWrites, putAll_flatMap, composeRow, sample]
  rw [passWrites, putAll_flatMap, composePass, row]

theorem column_inj {b c : Bool} {x y : Nat} (h : column b x = column c y) : b = c ∧ x = y := by
  cases b <;> cases c <;> simp [column, colL, colR] at h ⊢ <;> omega

/-- The writes of a sample: one for each scanline and each side. -/
theorem mem_sampleWrites {P : Params} {S D : Word} {yy : Nat} {g : Gray} {x : Nat} {w : BitWrite} :
    w ∈ sampleWrites P S D yy g x
      ↔ ∃ sec right : Bool, w = ⟨pixelByte (scanBase S D sec yy) (column right x), pixelBit P.bitOrder (column right x),
          (dither P.ditherPhase g (rowParity yy)).bit sec right⟩ := by
  simp [sampleWrites, Bool.exists_bool, scanBase, column, Pattern.bit, or_assoc]

theorem mem_passWrites {P : Params} {S D : Word} {cell : Nat → Nat → Gray} {w : BitWrite} :
    w ∈ passWrites P S D cell
      ↔ ∃ y < srcH, ∃ x < srcW, w ∈ sampleWrites P S D (rowPos y) (cell y x) x := by
  simp only [passWrites, rowWrites, List.mem_flatMap, List.mem_range]

theorem bit_lt_of_mem_passWrites {P : Params} {S D : Word} {cell : Nat → Nat → Gray} {w : BitWrite}
    (h : w ∈ passWrites P S D cell) : w.bit < 8 := by
  obtain ⟨y, _, x, _, h⟩ := mem_passWrites.1 h
  obtain ⟨sec, right, rfl⟩ := mem_sampleWrites.1 h
  exact pixelBit_lt _ _

theorem pixelByte_colL (base x : Nat) : pixelByte base (colL x) = base + 5 + x / 4 := by
  simp only [pixelByte, colL, hMargin, hScale]; omega

theorem pixelByte_colR (base x : Nat) : pixelByte base (colR x) = base + 5 + x / 4 := by
  simp only [pixelByte, colR, hMargin, hScale]; omega

/-- Both columns of a sample stand in one byte (R146). -/
theorem pixelByte_column (base : Nat) (right : Bool) (x : Nat) : pixelByte base (column right x) = base + 5 + x / 4 := by
  cases right
  · exact pixelByte_colL _ _
  · exact pixelByte_colR _ _

/-- Within a scanline two columns with one device bit are one column. -/
theorem eq_of_device_bit_eq {o : BitOrder} {base xx yy : Nat} (h : pixelByte base xx = pixelByte base yy)
    (hb : pixelBit o xx = pixelBit o yy) : xx = yy := by
  cases o <;> simp only [pixelByte, pixelBit] at h hb <;> omega

/-- Row positions reach 239 (R141). -/
theorem rowPos_le {y : Nat} (h : y < srcH) : rowPos y ≤ 239 :=
  (show ∀ y < 144, rowPos y ≤ 239 by decide) y h

/-- The pass writes below the bytes the geometry check asks for (R147). -/
theorem addr_lt_of_mem_passWrites {P : Params} {S D : Word} {cell : Nat → Nat → Gray} {w : BitWrite}
    (h : w ∈ passWrites P S D cell) : w.addr < bytesNeeded S D := by
  obtain ⟨y, hy, x, hx, h⟩ := mem_passWrites.1 h
  obtain ⟨sec, right, rfl⟩ := mem_sampleWrites.1 h
  have hmul : rowPos y * S.toNat ≤ 239 * S.toNat := Nat.mul_le_mul_right _ (rowPos_le hy)
  have hx' : x < 160 := hx
  simp only [pixelByte_column]
  cases sec <;> simp only [scanBase, primBase, secBase, bytesNeeded, if_true, Bool.false_eq_true, if_false] <;> omega

/-- Every write of the pass goes to an image byte (R147, R165). -/
theorem imageByte_of_mem_passWrites {P : Params} {S D : Word} {cell : Nat → Nat → Gray} {w : BitWrite}
    (h : w ∈ passWrites P S D cell) : ImageByte S D w.addr := by
  obtain ⟨y, hy, x, hx, h⟩ := mem_passWrites.1 h
  obtain ⟨sec, right, rfl⟩ := mem_sampleWrites.1 h
  refine ⟨y, hy, sec, ?_⟩
  simp only [srcW] at hx
  simp only [pixelByte_column]
  omega

/-! ### The compose order -/

/-- One write of the pass: row, column, scanline, side. -/
abbrev WriteKey := Nat × Nat × Bool × Bool

/-- The place of a write in the compose order. -/
def WriteKey.number (k : WriteKey) : Nat := writeNumber k.1 k.2.1 k.2.2.1 k.2.2.2

/-- The bit write of a key. -/
def WriteKey.bitWrite (P : Params) (S D : Word) (cell : Nat → Nat → Gray) (k : WriteKey) : BitWrite :=
  let base := scanBase S D k.2.2.1 (rowPos k.1)
  let xx := column k.2.2.2 k.2.1
  ⟨pixelByte base xx, pixelBit P.bitOrder xx,
    (dither P.ditherPhase (cell k.1 k.2.1) (rowParity (rowPos k.1))).bit k.2.2.1 k.2.2.2⟩

/-- The keys of the pass, in its order. -/
def passKeys : List WriteKey :=
  (List.range srcH).flatMap fun y => (List.range srcW).flatMap fun x =>
    [(y, x, false, false), (y, x, false, true), (y, x, true, false), (y, x, true, true)]

/-- The pass's list of writes is the list of its keys. -/
theorem passWrites_eq_map (P : Params) (S D : Word) (cell : Nat → Nat → Gray) :
    passWrites P S D cell = passKeys.map (WriteKey.bitWrite P S D cell) := by
  simp only [passWrites, rowWrites, passKeys, List.map_flatMap]
  rfl

theorem mem_passKeys {k : WriteKey} : k ∈ passKeys ↔ k.1 < srcH ∧ k.2.1 < srcW := by
  obtain ⟨y, x, sec, right⟩ := k
  simp only [passKeys, List.mem_flatMap, List.mem_range]
  constructor
  · rintro ⟨y', hy, x', hx, h⟩
    simp only [List.mem_cons, Prod.mk.injEq, List.not_mem_nil, or_false] at h
    omega
  · rintro ⟨hy, hx⟩
    exact ⟨y, hy, x, hx, by cases sec <;> cases right <;> simp⟩

/-- The keys stand in rising order of their numbers. -/
theorem pairwise_passKeys : passKeys.Pairwise fun a b => a.number < b.number := by
  rw [passKeys, List.pairwise_flatMap]
  refine ⟨fun y _ => ?_, List.pairwise_lt_range.imp_of_mem ?_⟩
  · rw [List.pairwise_flatMap]
    refine ⟨fun x _ => ?_, List.pairwise_lt_range.imp ?_⟩
    · simp [WriteKey.number, writeNumber]
    · intro x x' h a ha b hb
      simp only [List.mem_cons, List.not_mem_nil, or_false] at ha hb
      rcases ha with rfl | rfl | rfl | rfl <;> rcases hb with rfl | rfl | rfl | rfl <;>
        simp [WriteKey.number, writeNumber] <;> omega
  · intro y y' _ _ h a ha b hb
    simp only [List.mem_flatMap, List.mem_range, srcW] at ha hb
    obtain ⟨x, hx, ha⟩ := ha
    obtain ⟨x', hx', hb⟩ := hb
    simp only [List.mem_cons, List.not_mem_nil, or_false] at ha hb
    rcases ha with rfl | rfl | rfl | rfl <;> rcases hb with rfl | rfl | rfl | rfl <;>
      simp [WriteKey.number, writeNumber] <;> omega

/-- Of writes in rising order, one that no later one shares its device bit with leaves its value there. -/
theorem lastWrite_map_of_last {f : WriteKey → BitWrite} {ks : List WriteKey} {k : WriteKey}
    (order : ks.Pairwise fun a b => a.number < b.number) (h : k ∈ ks)
    (last : ∀ l ∈ ks, k.number < l.number → ¬ ((f k).addr = (f l).addr ∧ (f k).bit = (f l).bit)) :
    lastWrite (f k).addr (f k).bit (ks.map f) = some (f k).val := by
  induction ks with
  | nil => cases h
  | cons l ks ih =>
    rw [List.pairwise_cons] at order
    rw [List.map_cons, lastWrite]
    rcases List.mem_cons.1 h with rfl | h
    · have none_later : lastWrite (f k).addr (f k).bit (ks.map f) = none := by
        by_contra hne
        obtain ⟨v, hv⟩ := Option.ne_none_iff_exists'.1 hne
        obtain ⟨w, hw, ha, hb, _⟩ := lastWrite_mem hv
        obtain ⟨l, hl, rfl⟩ := List.mem_map.1 hw
        exact last l (List.mem_cons_of_mem _ hl) (order.1 l hl) ⟨ha.symm, hb.symm⟩
      simp [none_later]
    · rw [ih order.2 h fun l hl => last l (List.mem_cons_of_mem _ hl), Option.some_or]

end Sys2Proof.Machine
end

