-- ==== Sys2Proof/Laws/State.lean ====
section
/-! SUPPORT. One lemma per field and update of the state: what the update makes of the field. -/

namespace Sys2Proof.Machine

/-! ### respond -/

@[simp] theorem respond_plane (s : State) : (respond s).plane = s.plane := (rfl)
@[simp] theorem respond_rowValid (s : State) : (respond s).rowValid = s.rowValid := (rfl)
@[simp] theorem respond_skipCtr (s : State) : (respond s).skipCtr = s.skipCtr := (rfl)
@[simp] theorem respond_dpb (s : State) : (respond s).dpb = s.dpb := (rfl)
@[simp] theorem respond_cfgS (s : State) : (respond s).cfgS = s.cfgS := (rfl)
@[simp] theorem respond_cfgD (s : State) : (respond s).cfgD = s.cfgD := (rfl)
@[simp] theorem respond_cfgBufSize (s : State) : (respond s).cfgBufSize = s.cfgBufSize := (rfl)
@[simp] theorem respond_cfgFill (s : State) : (respond s).cfgFill = s.cfgFill := (rfl)
@[simp] theorem respond_cfgValid (s : State) : (respond s).cfgValid = s.cfgValid := (rfl)
@[simp] theorem respond_halted (s : State) : (respond s).halted = s.halted := (rfl)
@[simp] theorem respond_lastOutcome (s : State) : (respond s).lastOutcome = s.lastOutcome := (rfl)
@[simp] theorem respond_errMalformed (s : State) : (respond s).errMalformed = s.errMalformed := (rfl)
@[simp] theorem respond_errIncomplete (s : State) : (respond s).errIncomplete = s.errIncomplete := (rfl)
@[simp] theorem respond_errIllegal (s : State) : (respond s).errIllegal = s.errIllegal := (rfl)
@[simp] theorem respond_errSeq (s : State) : (respond s).errSeq = s.errSeq := (rfl)
@[simp] theorem respond_errConfig (s : State) : (respond s).errConfig = s.errConfig := (rfl)
@[simp] theorem respond_errFlush (s : State) : (respond s).errFlush = s.errFlush := (rfl)
@[simp] theorem respond_out (s : State) : (respond s).out = s.out := (rfl)
@[simp] theorem respond_inbox (s : State) : (respond s).inbox = s.inbox := (rfl)
@[simp] theorem respond_outbox (s : State) : (respond s).outbox = s.outbox ++ [status s] := (rfl)
@[simp] theorem respond_flushAnswers (s : State) : (respond s).flushAnswers = s.flushAnswers := (rfl)
@[simp] theorem respond_rivals (s : State) : (respond s).rivals = s.rivals := (rfl)
@[simp] theorem respond_ramEpoch (s : State) : (respond s).ramEpoch = s.ramEpoch := (rfl)
@[simp] theorem respond_draws (s : State) : (respond s).draws = s.draws := (rfl)

/-! ### consume -/

@[simp] theorem consume_plane (rest : List Word) (s : State) : (consume rest s).plane = s.plane := (rfl)
@[simp] theorem consume_rowValid (rest : List Word) (s : State) : (consume rest s).rowValid = s.rowValid := (rfl)
@[simp] theorem consume_skipCtr (rest : List Word) (s : State) : (consume rest s).skipCtr = s.skipCtr := (rfl)
@[simp] theorem consume_dpb (rest : List Word) (s : State) : (consume rest s).dpb = s.dpb := (rfl)
@[simp] theorem consume_cfgS (rest : List Word) (s : State) : (consume rest s).cfgS = s.cfgS := (rfl)
@[simp] theorem consume_cfgD (rest : List Word) (s : State) : (consume rest s).cfgD = s.cfgD := (rfl)
@[simp] theorem consume_cfgBufSize (rest : List Word) (s : State) : (consume rest s).cfgBufSize = s.cfgBufSize := (rfl)
@[simp] theorem consume_cfgFill (rest : List Word) (s : State) : (consume rest s).cfgFill = s.cfgFill := (rfl)
@[simp] theorem consume_cfgValid (rest : List Word) (s : State) : (consume rest s).cfgValid = s.cfgValid := (rfl)
@[simp] theorem consume_halted (rest : List Word) (s : State) : (consume rest s).halted = s.halted := (rfl)
@[simp] theorem consume_lastOutcome (rest : List Word) (s : State) : (consume rest s).lastOutcome = s.lastOutcome := (rfl)
@[simp] theorem consume_errMalformed (rest : List Word) (s : State) : (consume rest s).errMalformed = s.errMalformed := (rfl)
@[simp] theorem consume_errIncomplete (rest : List Word) (s : State) : (consume rest s).errIncomplete = s.errIncomplete := (rfl)
@[simp] theorem consume_errIllegal (rest : List Word) (s : State) : (consume rest s).errIllegal = s.errIllegal := (rfl)
@[simp] theorem consume_errSeq (rest : List Word) (s : State) : (consume rest s).errSeq = s.errSeq := (rfl)
@[simp] theorem consume_errConfig (rest : List Word) (s : State) : (consume rest s).errConfig = s.errConfig := (rfl)
@[simp] theorem consume_errFlush (rest : List Word) (s : State) : (consume rest s).errFlush = s.errFlush := (rfl)
@[simp] theorem consume_out (rest : List Word) (s : State) : (consume rest s).out = s.out := (rfl)
@[simp] theorem consume_inbox (rest : List Word) (s : State) : (consume rest s).inbox = rest := (rfl)
@[simp] theorem consume_outbox (rest : List Word) (s : State) : (consume rest s).outbox = s.outbox := (rfl)
@[simp] theorem consume_flushAnswers (rest : List Word) (s : State) : (consume rest s).flushAnswers = s.flushAnswers := (rfl)
@[simp] theorem consume_rivals (rest : List Word) (s : State) : (consume rest s).rivals = s.rivals := (rfl)
@[simp] theorem consume_ramEpoch (rest : List Word) (s : State) : (consume rest s).ramEpoch = s.ramEpoch := (rfl)
@[simp] theorem consume_draws (rest : List Word) (s : State) : (consume rest s).draws = s.draws := (rfl)

/-! ### clearRecoverable -/

@[simp] theorem clearRecoverable_plane (s : State) : (clearRecoverable s).plane = s.plane := (rfl)
@[simp] theorem clearRecoverable_rowValid (s : State) : (clearRecoverable s).rowValid = s.rowValid := (rfl)
@[simp] theorem clearRecoverable_skipCtr (s : State) : (clearRecoverable s).skipCtr = s.skipCtr := (rfl)
@[simp] theorem clearRecoverable_dpb (s : State) : (clearRecoverable s).dpb = s.dpb := (rfl)
@[simp] theorem clearRecoverable_cfgS (s : State) : (clearRecoverable s).cfgS = s.cfgS := (rfl)
@[simp] theorem clearRecoverable_cfgD (s : State) : (clearRecoverable s).cfgD = s.cfgD := (rfl)
@[simp] theorem clearRecoverable_cfgBufSize (s : State) : (clearRecoverable s).cfgBufSize = s.cfgBufSize := (rfl)
@[simp] theorem clearRecoverable_cfgFill (s : State) : (clearRecoverable s).cfgFill = s.cfgFill := (rfl)
@[simp] theorem clearRecoverable_cfgValid (s : State) : (clearRecoverable s).cfgValid = s.cfgValid := (rfl)
@[simp] theorem clearRecoverable_halted (s : State) : (clearRecoverable s).halted = s.halted := (rfl)
@[simp] theorem clearRecoverable_lastOutcome (s : State) : (clearRecoverable s).lastOutcome = s.lastOutcome := (rfl)
@[simp] theorem clearRecoverable_errMalformed (s : State) : (clearRecoverable s).errMalformed = false := (rfl)
@[simp] theorem clearRecoverable_errIncomplete (s : State) : (clearRecoverable s).errIncomplete = false := (rfl)
@[simp] theorem clearRecoverable_errIllegal (s : State) : (clearRecoverable s).errIllegal = false := (rfl)
@[simp] theorem clearRecoverable_errSeq (s : State) : (clearRecoverable s).errSeq = false := (rfl)
@[simp] theorem clearRecoverable_errConfig (s : State) : (clearRecoverable s).errConfig = s.errConfig := (rfl)
@[simp] theorem clearRecoverable_errFlush (s : State) : (clearRecoverable s).errFlush = s.errFlush := (rfl)
@[simp] theorem clearRecoverable_out (s : State) : (clearRecoverable s).out = s.out := (rfl)
@[simp] theorem clearRecoverable_inbox (s : State) : (clearRecoverable s).inbox = s.inbox := (rfl)
@[simp] theorem clearRecoverable_outbox (s : State) : (clearRecoverable s).outbox = s.outbox := (rfl)
@[simp] theorem clearRecoverable_flushAnswers (s : State) : (clearRecoverable s).flushAnswers = s.flushAnswers := (rfl)
@[simp] theorem clearRecoverable_rivals (s : State) : (clearRecoverable s).rivals = s.rivals := (rfl)
@[simp] theorem clearRecoverable_ramEpoch (s : State) : (clearRecoverable s).ramEpoch = s.ramEpoch := (rfl)
@[simp] theorem clearRecoverable_draws (s : State) : (clearRecoverable s).draws = s.draws := (rfl)

/-! ### clearRows -/

@[simp] theorem clearRows_plane (s : State) : (clearRows s).plane = s.plane := (rfl)
@[simp] theorem clearRows_rowValid (s : State) : (clearRows s).rowValid = 0 := (rfl)
@[simp] theorem clearRows_skipCtr (s : State) : (clearRows s).skipCtr = s.skipCtr := (rfl)
@[simp] theorem clearRows_dpb (s : State) : (clearRows s).dpb = s.dpb := (rfl)
@[simp] theorem clearRows_cfgS (s : State) : (clearRows s).cfgS = s.cfgS := (rfl)
@[simp] theorem clearRows_cfgD (s : State) : (clearRows s).cfgD = s.cfgD := (rfl)
@[simp] theorem clearRows_cfgBufSize (s : State) : (clearRows s).cfgBufSize = s.cfgBufSize := (rfl)
@[simp] theorem clearRows_cfgFill (s : State) : (clearRows s).cfgFill = s.cfgFill := (rfl)
@[simp] theorem clearRows_cfgValid (s : State) : (clearRows s).cfgValid = s.cfgValid := (rfl)
@[simp] theorem clearRows_halted (s : State) : (clearRows s).halted = s.halted := (rfl)
@[simp] theorem clearRows_lastOutcome (s : State) : (clearRows s).lastOutcome = s.lastOutcome := (rfl)
@[simp] theorem clearRows_errMalformed (s : State) : (clearRows s).errMalformed = s.errMalformed := (rfl)
@[simp] theorem clearRows_errIncomplete (s : State) : (clearRows s).errIncomplete = s.errIncomplete := (rfl)
@[simp] theorem clearRows_errIllegal (s : State) : (clearRows s).errIllegal = s.errIllegal := (rfl)
@[simp] theorem clearRows_errSeq (s : State) : (clearRows s).errSeq = s.errSeq := (rfl)
@[simp] theorem clearRows_errConfig (s : State) : (clearRows s).errConfig = s.errConfig := (rfl)
@[simp] theorem clearRows_errFlush (s : State) : (clearRows s).errFlush = s.errFlush := (rfl)
@[simp] theorem clearRows_out (s : State) : (clearRows s).out = s.out := (rfl)
@[simp] theorem clearRows_inbox (s : State) : (clearRows s).inbox = s.inbox := (rfl)
@[simp] theorem clearRows_outbox (s : State) : (clearRows s).outbox = s.outbox := (rfl)
@[simp] theorem clearRows_flushAnswers (s : State) : (clearRows s).flushAnswers = s.flushAnswers := (rfl)
@[simp] theorem clearRows_rivals (s : State) : (clearRows s).rivals = s.rivals := (rfl)
@[simp] theorem clearRows_ramEpoch (s : State) : (clearRows s).ramEpoch = s.ramEpoch := (rfl)
@[simp] theorem clearRows_draws (s : State) : (clearRows s).draws = s.draws := (rfl)

/-! ### setSkip -/

@[simp] theorem setSkip_plane (ctr : BitVec 8) (s : State) : (setSkip ctr s).plane = s.plane := (rfl)
@[simp] theorem setSkip_rowValid (ctr : BitVec 8) (s : State) : (setSkip ctr s).rowValid = s.rowValid := (rfl)
@[simp] theorem setSkip_skipCtr (ctr : BitVec 8) (s : State) : (setSkip ctr s).skipCtr = ctr := (rfl)
@[simp] theorem setSkip_dpb (ctr : BitVec 8) (s : State) : (setSkip ctr s).dpb = s.dpb := (rfl)
@[simp] theorem setSkip_cfgS (ctr : BitVec 8) (s : State) : (setSkip ctr s).cfgS = s.cfgS := (rfl)
@[simp] theorem setSkip_cfgD (ctr : BitVec 8) (s : State) : (setSkip ctr s).cfgD = s.cfgD := (rfl)
@[simp] theorem setSkip_cfgBufSize (ctr : BitVec 8) (s : State) : (setSkip ctr s).cfgBufSize = s.cfgBufSize := (rfl)
@[simp] theorem setSkip_cfgFill (ctr : BitVec 8) (s : State) : (setSkip ctr s).cfgFill = s.cfgFill := (rfl)
@[simp] theorem setSkip_cfgValid (ctr : BitVec 8) (s : State) : (setSkip ctr s).cfgValid = s.cfgValid := (rfl)
@[simp] theorem setSkip_halted (ctr : BitVec 8) (s : State) : (setSkip ctr s).halted = s.halted := (rfl)
@[simp] theorem setSkip_lastOutcome (ctr : BitVec 8) (s : State) : (setSkip ctr s).lastOutcome = s.lastOutcome := (rfl)
@[simp] theorem setSkip_errMalformed (ctr : BitVec 8) (s : State) : (setSkip ctr s).errMalformed = s.errMalformed := (rfl)
@[simp] theorem setSkip_errIncomplete (ctr : BitVec 8) (s : State) : (setSkip ctr s).errIncomplete = s.errIncomplete := (rfl)
@[simp] theorem setSkip_errIllegal (ctr : BitVec 8) (s : State) : (setSkip ctr s).errIllegal = s.errIllegal := (rfl)
@[simp] theorem setSkip_errSeq (ctr : BitVec 8) (s : State) : (setSkip ctr s).errSeq = s.errSeq := (rfl)
@[simp] theorem setSkip_errConfig (ctr : BitVec 8) (s : State) : (setSkip ctr s).errConfig = s.errConfig := (rfl)
@[simp] theorem setSkip_errFlush (ctr : BitVec 8) (s : State) : (setSkip ctr s).errFlush = s.errFlush := (rfl)
@[simp] theorem setSkip_out (ctr : BitVec 8) (s : State) : (setSkip ctr s).out = s.out := (rfl)
@[simp] theorem setSkip_inbox (ctr : BitVec 8) (s : State) : (setSkip ctr s).inbox = s.inbox := (rfl)
@[simp] theorem setSkip_outbox (ctr : BitVec 8) (s : State) : (setSkip ctr s).outbox = s.outbox := (rfl)
@[simp] theorem setSkip_flushAnswers (ctr : BitVec 8) (s : State) : (setSkip ctr s).flushAnswers = s.flushAnswers := (rfl)
@[simp] theorem setSkip_rivals (ctr : BitVec 8) (s : State) : (setSkip ctr s).rivals = s.rivals := (rfl)
@[simp] theorem setSkip_ramEpoch (ctr : BitVec 8) (s : State) : (setSkip ctr s).ramEpoch = s.ramEpoch := (rfl)
@[simp] theorem setSkip_draws (ctr : BitVec 8) (s : State) : (setSkip ctr s).draws = s.draws := (rfl)

/-! ### setOutcome -/

@[simp] theorem setOutcome_plane (o : LastOutcome) (s : State) : (setOutcome o s).plane = s.plane := (rfl)
@[simp] theorem setOutcome_rowValid (o : LastOutcome) (s : State) : (setOutcome o s).rowValid = s.rowValid := (rfl)
@[simp] theorem setOutcome_skipCtr (o : LastOutcome) (s : State) : (setOutcome o s).skipCtr = s.skipCtr := (rfl)
@[simp] theorem setOutcome_dpb (o : LastOutcome) (s : State) : (setOutcome o s).dpb = s.dpb := (rfl)
@[simp] theorem setOutcome_cfgS (o : LastOutcome) (s : State) : (setOutcome o s).cfgS = s.cfgS := (rfl)
@[simp] theorem setOutcome_cfgD (o : LastOutcome) (s : State) : (setOutcome o s).cfgD = s.cfgD := (rfl)
@[simp] theorem setOutcome_cfgBufSize (o : LastOutcome) (s : State) : (setOutcome o s).cfgBufSize = s.cfgBufSize := (rfl)
@[simp] theorem setOutcome_cfgFill (o : LastOutcome) (s : State) : (setOutcome o s).cfgFill = s.cfgFill := (rfl)
@[simp] theorem setOutcome_cfgValid (o : LastOutcome) (s : State) : (setOutcome o s).cfgValid = s.cfgValid := (rfl)
@[simp] theorem setOutcome_halted (o : LastOutcome) (s : State) : (setOutcome o s).halted = s.halted := (rfl)
@[simp] theorem setOutcome_lastOutcome (o : LastOutcome) (s : State) : (setOutcome o s).lastOutcome = o := (rfl)
@[simp] theorem setOutcome_errMalformed (o : LastOutcome) (s : State) : (setOutcome o s).errMalformed = s.errMalformed := (rfl)
@[simp] theorem setOutcome_errIncomplete (o : LastOutcome) (s : State) : (setOutcome o s).errIncomplete = s.errIncomplete := (rfl)
@[simp] theorem setOutcome_errIllegal (o : LastOutcome) (s : State) : (setOutcome o s).errIllegal = s.errIllegal := (rfl)
@[simp] theorem setOutcome_errSeq (o : LastOutcome) (s : State) : (setOutcome o s).errSeq = s.errSeq := (rfl)
@[simp] theorem setOutcome_errConfig (o : LastOutcome) (s : State) : (setOutcome o s).errConfig = s.errConfig := (rfl)
@[simp] theorem setOutcome_errFlush (o : LastOutcome) (s : State) : (setOutcome o s).errFlush = s.errFlush := (rfl)
@[simp] theorem setOutcome_out (o : LastOutcome) (s : State) : (setOutcome o s).out = s.out := (rfl)
@[simp] theorem setOutcome_inbox (o : LastOutcome) (s : State) : (setOutcome o s).inbox = s.inbox := (rfl)
@[simp] theorem setOutcome_outbox (o : LastOutcome) (s : State) : (setOutcome o s).outbox = s.outbox := (rfl)
@[simp] theorem setOutcome_flushAnswers (o : LastOutcome) (s : State) : (setOutcome o s).flushAnswers = s.flushAnswers := (rfl)
@[simp] theorem setOutcome_rivals (o : LastOutcome) (s : State) : (setOutcome o s).rivals = s.rivals := (rfl)
@[simp] theorem setOutcome_ramEpoch (o : LastOutcome) (s : State) : (setOutcome o s).ramEpoch = s.ramEpoch := (rfl)
@[simp] theorem setOutcome_draws (o : LastOutcome) (s : State) : (setOutcome o s).draws = s.draws := (rfl)

/-! ### resetSequence -/

@[simp] theorem resetSequence_plane (s : State) : (resetSequence s).plane = [] := (rfl)
@[simp] theorem resetSequence_rowValid (s : State) : (resetSequence s).rowValid = 0 := (rfl)
@[simp] theorem resetSequence_skipCtr (s : State) : (resetSequence s).skipCtr = 0 := (rfl)
@[simp] theorem resetSequence_dpb (s : State) : (resetSequence s).dpb = [] := (rfl)
@[simp] theorem resetSequence_cfgS (s : State) : (resetSequence s).cfgS = 0 := (rfl)
@[simp] theorem resetSequence_cfgD (s : State) : (resetSequence s).cfgD = 0 := (rfl)
@[simp] theorem resetSequence_cfgBufSize (s : State) : (resetSequence s).cfgBufSize = 0 := (rfl)
@[simp] theorem resetSequence_cfgFill (s : State) : (resetSequence s).cfgFill = 0 := (rfl)
@[simp] theorem resetSequence_cfgValid (s : State) : (resetSequence s).cfgValid = false := (rfl)
@[simp] theorem resetSequence_halted (s : State) : (resetSequence s).halted = false := (rfl)
@[simp] theorem resetSequence_lastOutcome (s : State) : (resetSequence s).lastOutcome = .none := (rfl)
@[simp] theorem resetSequence_errMalformed (s : State) : (resetSequence s).errMalformed = false := (rfl)
@[simp] theorem resetSequence_errIncomplete (s : State) : (resetSequence s).errIncomplete = false := (rfl)
@[simp] theorem resetSequence_errIllegal (s : State) : (resetSequence s).errIllegal = false := (rfl)
@[simp] theorem resetSequence_errSeq (s : State) : (resetSequence s).errSeq = false := (rfl)
@[simp] theorem resetSequence_errConfig (s : State) : (resetSequence s).errConfig = false := (rfl)
@[simp] theorem resetSequence_errFlush (s : State) : (resetSequence s).errFlush = false := (rfl)
@[simp] theorem resetSequence_out (s : State) : (resetSequence s).out = s.out := (rfl)
@[simp] theorem resetSequence_inbox (s : State) : (resetSequence s).inbox = s.inbox := (rfl)
@[simp] theorem resetSequence_outbox (s : State) : (resetSequence s).outbox = s.outbox := (rfl)
@[simp] theorem resetSequence_flushAnswers (s : State) : (resetSequence s).flushAnswers = s.flushAnswers := (rfl)
@[simp] theorem resetSequence_rivals (s : State) : (resetSequence s).rivals = s.rivals := (rfl)
@[simp] theorem resetSequence_ramEpoch (s : State) : (resetSequence s).ramEpoch = s.ramEpoch + 1 := (rfl)
@[simp] theorem resetSequence_draws (s : State) : (resetSequence s).draws = s.draws := (rfl)

/-! ### storeRow -/

@[simp] theorem storeRow_plane (row : Nat) (px : Nat → Gray) (s : State) : (storeRow row px s).plane = s.plane.writeRange (planeKey row 0) srcW px := (rfl)
@[simp] theorem storeRow_rowValid (row : Nat) (px : Nat → Gray) (s : State) : (storeRow row px s).rowValid = s.rowValid ||| BitVec.twoPow 144 row := (rfl)
@[simp] theorem storeRow_skipCtr (row : Nat) (px : Nat → Gray) (s : State) : (storeRow row px s).skipCtr = s.skipCtr := (rfl)
@[simp] theorem storeRow_dpb (row : Nat) (px : Nat → Gray) (s : State) : (storeRow row px s).dpb = s.dpb := (rfl)
@[simp] theorem storeRow_cfgS (row : Nat) (px : Nat → Gray) (s : State) : (storeRow row px s).cfgS = s.cfgS := (rfl)
@[simp] theorem storeRow_cfgD (row : Nat) (px : Nat → Gray) (s : State) : (storeRow row px s).cfgD = s.cfgD := (rfl)
@[simp] theorem storeRow_cfgBufSize (row : Nat) (px : Nat → Gray) (s : State) : (storeRow row px s).cfgBufSize = s.cfgBufSize := (rfl)
@[simp] theorem storeRow_cfgFill (row : Nat) (px : Nat → Gray) (s : State) : (storeRow row px s).cfgFill = s.cfgFill := (rfl)
@[simp] theorem storeRow_cfgValid (row : Nat) (px : Nat → Gray) (s : State) : (storeRow row px s).cfgValid = s.cfgValid := (rfl)
@[simp] theorem storeRow_halted (row : Nat) (px : Nat → Gray) (s : State) : (storeRow row px s).halted = s.halted := (rfl)
@[simp] theorem storeRow_lastOutcome (row : Nat) (px : Nat → Gray) (s : State) : (storeRow row px s).lastOutcome = s.lastOutcome := (rfl)
@[simp] theorem storeRow_errMalformed (row : Nat) (px : Nat → Gray) (s : State) : (storeRow row px s).errMalformed = s.errMalformed := (rfl)
@[simp] theorem storeRow_errIncomplete (row : Nat) (px : Nat → Gray) (s : State) : (storeRow row px s).errIncomplete = s.errIncomplete := (rfl)
@[simp] theorem storeRow_errIllegal (row : Nat) (px : Nat → Gray) (s : State) : (storeRow row px s).errIllegal = s.errIllegal := (rfl)
@[simp] theorem storeRow_errSeq (row : Nat) (px : Nat → Gray) (s : State) : (storeRow row px s).errSeq = s.errSeq := (rfl)
@[simp] theorem storeRow_errConfig (row : Nat) (px : Nat → Gray) (s : State) : (storeRow row px s).errConfig = s.errConfig := (rfl)
@[simp] theorem storeRow_errFlush (row : Nat) (px : Nat → Gray) (s : State) : (storeRow row px s).errFlush = s.errFlush := (rfl)
@[simp] theorem storeRow_out (row : Nat) (px : Nat → Gray) (s : State) : (storeRow row px s).out = s.out := (rfl)
@[simp] theorem storeRow_inbox (row : Nat) (px : Nat → Gray) (s : State) : (storeRow row px s).inbox = s.inbox := (rfl)
@[simp] theorem storeRow_outbox (row : Nat) (px : Nat → Gray) (s : State) : (storeRow row px s).outbox = s.outbox := (rfl)
@[simp] theorem storeRow_flushAnswers (row : Nat) (px : Nat → Gray) (s : State) : (storeRow row px s).flushAnswers = s.flushAnswers := (rfl)
@[simp] theorem storeRow_rivals (row : Nat) (px : Nat → Gray) (s : State) : (storeRow row px s).rivals = s.rivals := (rfl)
@[simp] theorem storeRow_ramEpoch (row : Nat) (px : Nat → Gray) (s : State) : (storeRow row px s).ramEpoch = s.ramEpoch := (rfl)
@[simp] theorem storeRow_draws (row : Nat) (px : Nat → Gray) (s : State) : (storeRow row px s).draws = s.draws := (rfl)

/-! ### loadConfig -/

@[simp] theorem loadConfig_plane (S D size : Word) (fill : Byte) (s : State) : (loadConfig S D size fill s).plane = s.plane := (rfl)
@[simp] theorem loadConfig_rowValid (S D size : Word) (fill : Byte) (s : State) : (loadConfig S D size fill s).rowValid = s.rowValid := (rfl)
@[simp] theorem loadConfig_skipCtr (S D size : Word) (fill : Byte) (s : State) : (loadConfig S D size fill s).skipCtr = s.skipCtr := (rfl)
@[simp] theorem loadConfig_dpb (S D size : Word) (fill : Byte) (s : State) : (loadConfig S D size fill s).dpb = s.dpb.writeRange 0 size.toNat (fun _ => fill) := (rfl)
@[simp] theorem loadConfig_cfgS (S D size : Word) (fill : Byte) (s : State) : (loadConfig S D size fill s).cfgS = S := (rfl)
@[simp] theorem loadConfig_cfgD (S D size : Word) (fill : Byte) (s : State) : (loadConfig S D size fill s).cfgD = D := (rfl)
@[simp] theorem loadConfig_cfgBufSize (S D size : Word) (fill : Byte) (s : State) : (loadConfig S D size fill s).cfgBufSize = size := (rfl)
@[simp] theorem loadConfig_cfgFill (S D size : Word) (fill : Byte) (s : State) : (loadConfig S D size fill s).cfgFill = fill := (rfl)
@[simp] theorem loadConfig_cfgValid (S D size : Word) (fill : Byte) (s : State) : (loadConfig S D size fill s).cfgValid = true := (rfl)
@[simp] theorem loadConfig_halted (S D size : Word) (fill : Byte) (s : State) : (loadConfig S D size fill s).halted = s.halted := (rfl)
@[simp] theorem loadConfig_lastOutcome (S D size : Word) (fill : Byte) (s : State) : (loadConfig S D size fill s).lastOutcome = s.lastOutcome := (rfl)
@[simp] theorem loadConfig_errMalformed (S D size : Word) (fill : Byte) (s : State) : (loadConfig S D size fill s).errMalformed = s.errMalformed := (rfl)
@[simp] theorem loadConfig_errIncomplete (S D size : Word) (fill : Byte) (s : State) : (loadConfig S D size fill s).errIncomplete = s.errIncomplete := (rfl)
@[simp] theorem loadConfig_errIllegal (S D size : Word) (fill : Byte) (s : State) : (loadConfig S D size fill s).errIllegal = s.errIllegal := (rfl)
@[simp] theorem loadConfig_errSeq (S D size : Word) (fill : Byte) (s : State) : (loadConfig S D size fill s).errSeq = s.errSeq := (rfl)
@[simp] theorem loadConfig_errConfig (S D size : Word) (fill : Byte) (s : State) : (loadConfig S D size fill s).errConfig = s.errConfig := (rfl)
@[simp] theorem loadConfig_errFlush (S D size : Word) (fill : Byte) (s : State) : (loadConfig S D size fill s).errFlush = s.errFlush := (rfl)
@[simp] theorem loadConfig_out (S D size : Word) (fill : Byte) (s : State) : (loadConfig S D size fill s).out = s.out := (rfl)
@[simp] theorem loadConfig_inbox (S D size : Word) (fill : Byte) (s : State) : (loadConfig S D size fill s).inbox = s.inbox := (rfl)
@[simp] theorem loadConfig_outbox (S D size : Word) (fill : Byte) (s : State) : (loadConfig S D size fill s).outbox = s.outbox := (rfl)
@[simp] theorem loadConfig_flushAnswers (S D size : Word) (fill : Byte) (s : State) : (loadConfig S D size fill s).flushAnswers = s.flushAnswers := (rfl)
@[simp] theorem loadConfig_rivals (S D size : Word) (fill : Byte) (s : State) : (loadConfig S D size fill s).rivals = s.rivals := (rfl)
@[simp] theorem loadConfig_ramEpoch (S D size : Word) (fill : Byte) (s : State) : (loadConfig S D size fill s).ramEpoch = s.ramEpoch := (rfl)
@[simp] theorem loadConfig_draws (S D size : Word) (fill : Byte) (s : State) : (loadConfig S D size fill s).draws = s.draws := (rfl)

/-! ### composed -/

/-- The pass writes DPB and nothing else. The field lemmas below are proved through this equation, not by unfolding, so
that no proof compares `composed P s` with `s` field by field: that would run the pass. -/
theorem composed_frame (P : Params) (s : State) : ∃ d, composed P s = { s with dpb := d } :=
  ⟨composePass P (Config.dpbUnspecified s.ramEpoch) s.cfgS s.cfgD (planeCell s) s.dpb, by rw [composed]⟩

@[simp] theorem composed_plane (P : Params) (s : State) : (composed P s).plane = s.plane := by obtain ⟨d, h⟩ := composed_frame P s; rw [h]
@[simp] theorem composed_rowValid (P : Params) (s : State) : (composed P s).rowValid = s.rowValid := by obtain ⟨d, h⟩ := composed_frame P s; rw [h]
@[simp] theorem composed_skipCtr (P : Params) (s : State) : (composed P s).skipCtr = s.skipCtr := by obtain ⟨d, h⟩ := composed_frame P s; rw [h]
@[simp] theorem composed_dpb (P : Params) (s : State) : (composed P s).dpb = composePass P (Config.dpbUnspecified s.ramEpoch) s.cfgS s.cfgD (planeCell s) s.dpb := by simp only [composed]
@[simp] theorem composed_cfgS (P : Params) (s : State) : (composed P s).cfgS = s.cfgS := by obtain ⟨d, h⟩ := composed_frame P s; rw [h]
@[simp] theorem composed_cfgD (P : Params) (s : State) : (composed P s).cfgD = s.cfgD := by obtain ⟨d, h⟩ := composed_frame P s; rw [h]
@[simp] theorem composed_cfgBufSize (P : Params) (s : State) : (composed P s).cfgBufSize = s.cfgBufSize := by obtain ⟨d, h⟩ := composed_frame P s; rw [h]
@[simp] theorem composed_cfgFill (P : Params) (s : State) : (composed P s).cfgFill = s.cfgFill := by obtain ⟨d, h⟩ := composed_frame P s; rw [h]
@[simp] theorem composed_cfgValid (P : Params) (s : State) : (composed P s).cfgValid = s.cfgValid := by obtain ⟨d, h⟩ := composed_frame P s; rw [h]
@[simp] theorem composed_halted (P : Params) (s : State) : (composed P s).halted = s.halted := by obtain ⟨d, h⟩ := composed_frame P s; rw [h]
@[simp] theorem composed_lastOutcome (P : Params) (s : State) : (composed P s).lastOutcome = s.lastOutcome := by obtain ⟨d, h⟩ := composed_frame P s; rw [h]
@[simp] theorem composed_errMalformed (P : Params) (s : State) : (composed P s).errMalformed = s.errMalformed := by obtain ⟨d, h⟩ := composed_frame P s; rw [h]
@[simp] theorem composed_errIncomplete (P : Params) (s : State) : (composed P s).errIncomplete = s.errIncomplete := by obtain ⟨d, h⟩ := composed_frame P s; rw [h]
@[simp] theorem composed_errIllegal (P : Params) (s : State) : (composed P s).errIllegal = s.errIllegal := by obtain ⟨d, h⟩ := composed_frame P s; rw [h]
@[simp] theorem composed_errSeq (P : Params) (s : State) : (composed P s).errSeq = s.errSeq := by obtain ⟨d, h⟩ := composed_frame P s; rw [h]
@[simp] theorem composed_errConfig (P : Params) (s : State) : (composed P s).errConfig = s.errConfig := by obtain ⟨d, h⟩ := composed_frame P s; rw [h]
@[simp] theorem composed_errFlush (P : Params) (s : State) : (composed P s).errFlush = s.errFlush := by obtain ⟨d, h⟩ := composed_frame P s; rw [h]
@[simp] theorem composed_out (P : Params) (s : State) : (composed P s).out = s.out := by obtain ⟨d, h⟩ := composed_frame P s; rw [h]
@[simp] theorem composed_inbox (P : Params) (s : State) : (composed P s).inbox = s.inbox := by obtain ⟨d, h⟩ := composed_frame P s; rw [h]
@[simp] theorem composed_outbox (P : Params) (s : State) : (composed P s).outbox = s.outbox := by obtain ⟨d, h⟩ := composed_frame P s; rw [h]
@[simp] theorem composed_flushAnswers (P : Params) (s : State) : (composed P s).flushAnswers = s.flushAnswers := by obtain ⟨d, h⟩ := composed_frame P s; rw [h]
@[simp] theorem composed_rivals (P : Params) (s : State) : (composed P s).rivals = s.rivals := by obtain ⟨d, h⟩ := composed_frame P s; rw [h]
@[simp] theorem composed_ramEpoch (P : Params) (s : State) : (composed P s).ramEpoch = s.ramEpoch := by obtain ⟨d, h⟩ := composed_frame P s; rw [h]
@[simp] theorem composed_draws (P : Params) (s : State) : (composed P s).draws = s.draws := by obtain ⟨d, h⟩ := composed_frame P s; rw [h]

/-! ### endFlush -/

@[simp] theorem endFlush_plane (s : State) : (endFlush s).plane = s.plane := (rfl)
@[simp] theorem endFlush_rowValid (s : State) : (endFlush s).rowValid = s.rowValid := (rfl)
@[simp] theorem endFlush_skipCtr (s : State) : (endFlush s).skipCtr = s.skipCtr := (rfl)
@[simp] theorem endFlush_dpb (s : State) : (endFlush s).dpb = s.dpb := (rfl)
@[simp] theorem endFlush_cfgS (s : State) : (endFlush s).cfgS = s.cfgS := (rfl)
@[simp] theorem endFlush_cfgD (s : State) : (endFlush s).cfgD = s.cfgD := (rfl)
@[simp] theorem endFlush_cfgBufSize (s : State) : (endFlush s).cfgBufSize = s.cfgBufSize := (rfl)
@[simp] theorem endFlush_cfgFill (s : State) : (endFlush s).cfgFill = s.cfgFill := (rfl)
@[simp] theorem endFlush_cfgValid (s : State) : (endFlush s).cfgValid = s.cfgValid := (rfl)
@[simp] theorem endFlush_halted (s : State) : (endFlush s).halted = s.halted := (rfl)
@[simp] theorem endFlush_lastOutcome (s : State) : (endFlush s).lastOutcome = s.lastOutcome := (rfl)
@[simp] theorem endFlush_errMalformed (s : State) : (endFlush s).errMalformed = s.errMalformed := (rfl)
@[simp] theorem endFlush_errIncomplete (s : State) : (endFlush s).errIncomplete = s.errIncomplete := (rfl)
@[simp] theorem endFlush_errIllegal (s : State) : (endFlush s).errIllegal = s.errIllegal := (rfl)
@[simp] theorem endFlush_errSeq (s : State) : (endFlush s).errSeq = s.errSeq := (rfl)
@[simp] theorem endFlush_errConfig (s : State) : (endFlush s).errConfig = s.errConfig := (rfl)
@[simp] theorem endFlush_errFlush (s : State) : (endFlush s).errFlush = s.errFlush := (rfl)
@[simp] theorem endFlush_out (s : State) : (endFlush s).out = s.out := (rfl)
@[simp] theorem endFlush_inbox (s : State) : (endFlush s).inbox = s.inbox := (rfl)
@[simp] theorem endFlush_outbox (s : State) : (endFlush s).outbox = s.outbox := (rfl)
@[simp] theorem endFlush_flushAnswers (s : State) : (endFlush s).flushAnswers = s.flushAnswers.tail := (rfl)
@[simp] theorem endFlush_rivals (s : State) : (endFlush s).rivals = [] := (rfl)
@[simp] theorem endFlush_ramEpoch (s : State) : (endFlush s).ramEpoch = s.ramEpoch := (rfl)
@[simp] theorem endFlush_draws (s : State) : (endFlush s).draws = s.draws + 1 := (rfl)

/-! ### flushDone -/

@[simp] theorem flushDone_plane (s : State) : (flushDone s).plane = s.plane := (rfl)
@[simp] theorem flushDone_rowValid (s : State) : (flushDone s).rowValid = s.rowValid := (rfl)
@[simp] theorem flushDone_skipCtr (s : State) : (flushDone s).skipCtr = s.skipCtr := (rfl)
@[simp] theorem flushDone_dpb (s : State) : (flushDone s).dpb = s.dpb := (rfl)
@[simp] theorem flushDone_cfgS (s : State) : (flushDone s).cfgS = s.cfgS := (rfl)
@[simp] theorem flushDone_cfgD (s : State) : (flushDone s).cfgD = s.cfgD := (rfl)
@[simp] theorem flushDone_cfgBufSize (s : State) : (flushDone s).cfgBufSize = s.cfgBufSize := (rfl)
@[simp] theorem flushDone_cfgFill (s : State) : (flushDone s).cfgFill = s.cfgFill := (rfl)
@[simp] theorem flushDone_cfgValid (s : State) : (flushDone s).cfgValid = s.cfgValid := (rfl)
@[simp] theorem flushDone_halted (s : State) : (flushDone s).halted = s.halted := (rfl)
@[simp] theorem flushDone_lastOutcome (s : State) : (flushDone s).lastOutcome = s.lastOutcome := (rfl)
@[simp] theorem flushDone_errMalformed (s : State) : (flushDone s).errMalformed = s.errMalformed := (rfl)
@[simp] theorem flushDone_errIncomplete (s : State) : (flushDone s).errIncomplete = s.errIncomplete := (rfl)
@[simp] theorem flushDone_errIllegal (s : State) : (flushDone s).errIllegal = s.errIllegal := (rfl)
@[simp] theorem flushDone_errSeq (s : State) : (flushDone s).errSeq = s.errSeq := (rfl)
@[simp] theorem flushDone_errConfig (s : State) : (flushDone s).errConfig = s.errConfig := (rfl)
@[simp] theorem flushDone_errFlush (s : State) : (flushDone s).errFlush = s.errFlush := (rfl)
@[simp] theorem flushDone_out (s : State) : (flushDone s).out = landRivals s.draws s.cfgBufSize.toNat 0 s.rivals (copiedOut s) := (rfl)
@[simp] theorem flushDone_inbox (s : State) : (flushDone s).inbox = s.inbox := (rfl)
@[simp] theorem flushDone_outbox (s : State) : (flushDone s).outbox = s.outbox := (rfl)
@[simp] theorem flushDone_flushAnswers (s : State) : (flushDone s).flushAnswers = s.flushAnswers.tail := (rfl)
@[simp] theorem flushDone_rivals (s : State) : (flushDone s).rivals = [] := (rfl)
@[simp] theorem flushDone_ramEpoch (s : State) : (flushDone s).ramEpoch = s.ramEpoch := (rfl)
@[simp] theorem flushDone_draws (s : State) : (flushDone s).draws = s.draws + 1 := (rfl)

/-! ### flushFailed -/

@[simp] theorem flushFailed_plane (s : State) : (flushFailed s).plane = s.plane := (rfl)
@[simp] theorem flushFailed_rowValid (s : State) : (flushFailed s).rowValid = s.rowValid := (rfl)
@[simp] theorem flushFailed_skipCtr (s : State) : (flushFailed s).skipCtr = s.skipCtr := (rfl)
@[simp] theorem flushFailed_dpb (s : State) : (flushFailed s).dpb = s.dpb := (rfl)
@[simp] theorem flushFailed_cfgS (s : State) : (flushFailed s).cfgS = s.cfgS := (rfl)
@[simp] theorem flushFailed_cfgD (s : State) : (flushFailed s).cfgD = s.cfgD := (rfl)
@[simp] theorem flushFailed_cfgBufSize (s : State) : (flushFailed s).cfgBufSize = s.cfgBufSize := (rfl)
@[simp] theorem flushFailed_cfgFill (s : State) : (flushFailed s).cfgFill = s.cfgFill := (rfl)
@[simp] theorem flushFailed_cfgValid (s : State) : (flushFailed s).cfgValid = s.cfgValid := (rfl)
@[simp] theorem flushFailed_halted (s : State) : (flushFailed s).halted = true := (rfl)
@[simp] theorem flushFailed_lastOutcome (s : State) : (flushFailed s).lastOutcome = .none := (rfl)
@[simp] theorem flushFailed_errMalformed (s : State) : (flushFailed s).errMalformed = s.errMalformed := (rfl)
@[simp] theorem flushFailed_errIncomplete (s : State) : (flushFailed s).errIncomplete = s.errIncomplete := (rfl)
@[simp] theorem flushFailed_errIllegal (s : State) : (flushFailed s).errIllegal = s.errIllegal := (rfl)
@[simp] theorem flushFailed_errSeq (s : State) : (flushFailed s).errSeq = s.errSeq := (rfl)
@[simp] theorem flushFailed_errConfig (s : State) : (flushFailed s).errConfig = s.errConfig := (rfl)
@[simp] theorem flushFailed_errFlush (s : State) : (flushFailed s).errFlush = true := (rfl)
@[simp] theorem flushFailed_out (s : State) : (flushFailed s).out = s.out.writeRange 0 s.cfgBufSize.toNat (Config.junk s.draws) := (rfl)
@[simp] theorem flushFailed_inbox (s : State) : (flushFailed s).inbox = s.inbox := (rfl)
@[simp] theorem flushFailed_outbox (s : State) : (flushFailed s).outbox = s.outbox := (rfl)
@[simp] theorem flushFailed_flushAnswers (s : State) : (flushFailed s).flushAnswers = s.flushAnswers.tail := (rfl)
@[simp] theorem flushFailed_rivals (s : State) : (flushFailed s).rivals = [] := (rfl)
@[simp] theorem flushFailed_ramEpoch (s : State) : (flushFailed s).ramEpoch = s.ramEpoch := (rfl)
@[simp] theorem flushFailed_draws (s : State) : (flushFailed s).draws = s.draws + 1 := (rfl)

/-! ### raise -/

@[simp] theorem raise_plane (e : ErrorCond) (s : State) : (raise e s).plane = s.plane := by cases e <;> rfl
@[simp] theorem raise_rowValid (e : ErrorCond) (s : State) : (raise e s).rowValid = s.rowValid := by cases e <;> rfl
@[simp] theorem raise_skipCtr (e : ErrorCond) (s : State) : (raise e s).skipCtr = s.skipCtr := by cases e <;> rfl
@[simp] theorem raise_dpb (e : ErrorCond) (s : State) : (raise e s).dpb = s.dpb := by cases e <;> rfl
@[simp] theorem raise_cfgS (e : ErrorCond) (s : State) : (raise e s).cfgS = s.cfgS := by cases e <;> rfl
@[simp] theorem raise_cfgD (e : ErrorCond) (s : State) : (raise e s).cfgD = s.cfgD := by cases e <;> rfl
@[simp] theorem raise_cfgBufSize (e : ErrorCond) (s : State) : (raise e s).cfgBufSize = s.cfgBufSize := by cases e <;> rfl
@[simp] theorem raise_cfgFill (e : ErrorCond) (s : State) : (raise e s).cfgFill = s.cfgFill := by cases e <;> rfl
@[simp] theorem raise_cfgValid (e : ErrorCond) (s : State) : (raise e s).cfgValid = s.cfgValid := by cases e <;> rfl
@[simp] theorem raise_out (e : ErrorCond) (s : State) : (raise e s).out = s.out := by cases e <;> rfl
@[simp] theorem raise_inbox (e : ErrorCond) (s : State) : (raise e s).inbox = s.inbox := by cases e <;> rfl
@[simp] theorem raise_outbox (e : ErrorCond) (s : State) : (raise e s).outbox = s.outbox := by cases e <;> rfl
@[simp] theorem raise_flushAnswers (e : ErrorCond) (s : State) : (raise e s).flushAnswers = s.flushAnswers := by cases e <;> rfl
@[simp] theorem raise_rivals (e : ErrorCond) (s : State) : (raise e s).rivals = s.rivals := by cases e <;> rfl
@[simp] theorem raise_ramEpoch (e : ErrorCond) (s : State) : (raise e s).ramEpoch = s.ramEpoch := by cases e <;> rfl
@[simp] theorem raise_draws (e : ErrorCond) (s : State) : (raise e s).draws = s.draws := by cases e <;> rfl

@[simp] theorem raise_halted (e : ErrorCond) (s : State) : (raise e s).halted = (s.halted || e.fatal) := by
  cases e <;> simp [raise, ErrorCond.fatal]

/-- Raising a condition sets its own flag and leaves every other one as it is. -/
theorem raise_flag (e f : ErrorCond) (s : State) : f.flag (raise e s) = (decide (f = e) || f.flag s) := by
  cases e <;> cases f <;> simp [raise, ErrorCond.flag]

@[simp] theorem raise_malformedScanline_errMalformed (s : State) : (raise .malformedScanline s).errMalformed = true := rfl
@[simp] theorem raise_malformedScanline_errIncomplete (s : State) : (raise .malformedScanline s).errIncomplete = s.errIncomplete := rfl
@[simp] theorem raise_malformedScanline_errIllegal (s : State) : (raise .malformedScanline s).errIllegal = s.errIllegal := rfl
@[simp] theorem raise_malformedScanline_errSeq (s : State) : (raise .malformedScanline s).errSeq = s.errSeq := rfl
@[simp] theorem raise_malformedScanline_errConfig (s : State) : (raise .malformedScanline s).errConfig = s.errConfig := rfl
@[simp] theorem raise_malformedScanline_errFlush (s : State) : (raise .malformedScanline s).errFlush = s.errFlush := rfl
@[simp] theorem raise_malformedScanline_lastOutcome (s : State) : (raise .malformedScanline s).lastOutcome = s.lastOutcome := rfl
@[simp] theorem raise_incompleteFrame_errMalformed (s : State) : (raise .incompleteFrame s).errMalformed = s.errMalformed := rfl
@[simp] theorem raise_incompleteFrame_errIncomplete (s : State) : (raise .incompleteFrame s).errIncomplete = true := rfl
@[simp] theorem raise_incompleteFrame_errIllegal (s : State) : (raise .incompleteFrame s).errIllegal = s.errIllegal := rfl
@[simp] theorem raise_incompleteFrame_errSeq (s : State) : (raise .incompleteFrame s).errSeq = s.errSeq := rfl
@[simp] theorem raise_incompleteFrame_errConfig (s : State) : (raise .incompleteFrame s).errConfig = s.errConfig := rfl
@[simp] theorem raise_incompleteFrame_errFlush (s : State) : (raise .incompleteFrame s).errFlush = s.errFlush := rfl
@[simp] theorem raise_incompleteFrame_lastOutcome (s : State) : (raise .incompleteFrame s).lastOutcome = .dropped := rfl
@[simp] theorem raise_illegalCommand_errMalformed (s : State) : (raise .illegalCommand s).errMalformed = s.errMalformed := rfl
@[simp] theorem raise_illegalCommand_errIncomplete (s : State) : (raise .illegalCommand s).errIncomplete = s.errIncomplete := rfl
@[simp] theorem raise_illegalCommand_errIllegal (s : State) : (raise .illegalCommand s).errIllegal = true := rfl
@[simp] theorem raise_illegalCommand_errSeq (s : State) : (raise .illegalCommand s).errSeq = s.errSeq := rfl
@[simp] theorem raise_illegalCommand_errConfig (s : State) : (raise .illegalCommand s).errConfig = s.errConfig := rfl
@[simp] theorem raise_illegalCommand_errFlush (s : State) : (raise .illegalCommand s).errFlush = s.errFlush := rfl
@[simp] theorem raise_illegalCommand_lastOutcome (s : State) : (raise .illegalCommand s).lastOutcome = s.lastOutcome := rfl
@[simp] theorem raise_sequenceError_errMalformed (s : State) : (raise .sequenceError s).errMalformed = s.errMalformed := rfl
@[simp] theorem raise_sequenceError_errIncomplete (s : State) : (raise .sequenceError s).errIncomplete = s.errIncomplete := rfl
@[simp] theorem raise_sequenceError_errIllegal (s : State) : (raise .sequenceError s).errIllegal = s.errIllegal := rfl
@[simp] theorem raise_sequenceError_errSeq (s : State) : (raise .sequenceError s).errSeq = true := rfl
@[simp] theorem raise_sequenceError_errConfig (s : State) : (raise .sequenceError s).errConfig = s.errConfig := rfl
@[simp] theorem raise_sequenceError_errFlush (s : State) : (raise .sequenceError s).errFlush = s.errFlush := rfl
@[simp] theorem raise_sequenceError_lastOutcome (s : State) : (raise .sequenceError s).lastOutcome = s.lastOutcome := rfl
@[simp] theorem raise_configMismatch_errMalformed (s : State) : (raise .configMismatch s).errMalformed = s.errMalformed := rfl
@[simp] theorem raise_configMismatch_errIncomplete (s : State) : (raise .configMismatch s).errIncomplete = s.errIncomplete := rfl
@[simp] theorem raise_configMismatch_errIllegal (s : State) : (raise .configMismatch s).errIllegal = s.errIllegal := rfl
@[simp] theorem raise_configMismatch_errSeq (s : State) : (raise .configMismatch s).errSeq = s.errSeq := rfl
@[simp] theorem raise_configMismatch_errConfig (s : State) : (raise .configMismatch s).errConfig = true := rfl
@[simp] theorem raise_configMismatch_errFlush (s : State) : (raise .configMismatch s).errFlush = s.errFlush := rfl
@[simp] theorem raise_configMismatch_lastOutcome (s : State) : (raise .configMismatch s).lastOutcome = s.lastOutcome := rfl
@[simp] theorem raise_outputWriteFailure_errMalformed (s : State) : (raise .outputWriteFailure s).errMalformed = s.errMalformed := rfl
@[simp] theorem raise_outputWriteFailure_errIncomplete (s : State) : (raise .outputWriteFailure s).errIncomplete = s.errIncomplete := rfl
@[simp] theorem raise_outputWriteFailure_errIllegal (s : State) : (raise .outputWriteFailure s).errIllegal = s.errIllegal := rfl
@[simp] theorem raise_outputWriteFailure_errSeq (s : State) : (raise .outputWriteFailure s).errSeq = s.errSeq := rfl
@[simp] theorem raise_outputWriteFailure_errConfig (s : State) : (raise .outputWriteFailure s).errConfig = s.errConfig := rfl
@[simp] theorem raise_outputWriteFailure_errFlush (s : State) : (raise .outputWriteFailure s).errFlush = true := rfl
@[simp] theorem raise_outputWriteFailure_lastOutcome (s : State) : (raise .outputWriteFailure s).lastOutcome = .none := rfl

end Sys2Proof.Machine
end

