-- ==== Sys2Proof/Laws/Status.lean ====
section
/-! SUPPORT. ROWS_VALID and what STATUS does not depend on. -/

namespace Sys2Proof.Machine

theorem rowsValid_congr {s t : State} (h : s.rowValid = t.rowValid) : rowsValid s = rowsValid t := by
  unfold rowsValid; rw [h]

/-- STATUS is a function of the flags, the counter and the number of valid rows. -/
theorem status_congr {s t : State} (h1 : s.rowValid = t.rowValid) (h2 : s.skipCtr = t.skipCtr)
    (h3 : s.errFlush = t.errFlush) (h4 : s.errConfig = t.errConfig) (h5 : s.errSeq = t.errSeq)
    (h6 : s.errIllegal = t.errIllegal) (h7 : s.errIncomplete = t.errIncomplete)
    (h8 : s.errMalformed = t.errMalformed) (h9 : s.lastOutcome = t.lastOutcome) (h10 : s.halted = t.halted)
    (h11 : s.cfgValid = t.cfgValid) : status s = status t := by
  unfold status
  rw [rowsValid_congr h1, h2, h3, h4, h5, h6, h7, h8, h9, h10, h11]

/-- A bit of a placed field. -/
theorem getLsbD_field {w : Nat} (v : BitVec w) (low i : Nat) (h : i < 32) :
    (field v low).getLsbD i = (decide (low ≤ i) && v.getLsbD (i - low)) := by
  unfold field
  rw [BitVec.getLsbD_shiftLeft, BitVec.getLsbD_setWidth]
  by_cases h1 : i < low
  · simp [h1, h]
  · have : low ≤ i := by omega
    have : i - low < 32 := by omega
    simp [*]

/-- A bit of STATUS, from the fields that may hold it. -/
theorem getLsbD_status (s : State) (i : Nat) (h : i < 32) :
    (status s).getLsbD i =
      ((decide (0 ≤ i) && (BitVec.ofBool s.cfgValid).getLsbD (i - 0))
        || (decide (1 ≤ i) && (BitVec.ofBool s.halted).getLsbD (i - 1))
        || (decide (2 ≤ i) && s.lastOutcome.bits.getLsbD (i - 2))
        || (decide (4 ≤ i) && (BitVec.ofBool s.errMalformed).getLsbD (i - 4))
        || (decide (5 ≤ i) && (BitVec.ofBool s.errIncomplete).getLsbD (i - 5))
        || (decide (6 ≤ i) && (BitVec.ofBool s.errIllegal).getLsbD (i - 6))
        || (decide (7 ≤ i) && (BitVec.ofBool s.errSeq).getLsbD (i - 7))
        || (decide (8 ≤ i) && (BitVec.ofBool s.errConfig).getLsbD (i - 8))
        || (decide (9 ≤ i) && (BitVec.ofBool s.errFlush).getLsbD (i - 9))
        || (decide (16 ≤ i) && s.skipCtr.getLsbD (i - 16))
        || (decide (24 ≤ i) && (BitVec.ofNat 8 (rowsValid s)).getLsbD (i - 24))) := by
  unfold status
  simp only [BitVec.getLsbD_or, getLsbD_field _ _ _ h]

@[simp] theorem rowsValid_respond (s : State) : rowsValid (respond s) = rowsValid s := rfl
@[simp] theorem rowsValid_consume (rest : List Word) (s : State) : rowsValid (consume rest s) = rowsValid s := rfl
@[simp] theorem rowsValid_raise (e : ErrorCond) (s : State) : rowsValid (raise e s) = rowsValid s := by cases e <;> rfl
@[simp] theorem status_respond (s : State) : status (respond s) = status s := rfl
@[simp] theorem status_consume (rest : List Word) (s : State) : status (consume rest s) = status s := rfl
@[simp] theorem status_composed (P : Params) (s : State) : status (composed P s) = status s := by
  apply status_congr <;> simp
@[simp] theorem status_endFlush (s : State) : status (endFlush s) = status s := rfl
@[simp] theorem flushAnswer_composed (P : Params) (s : State) : flushAnswer (composed P s) = flushAnswer s := by
  simp only [flushAnswer, composed_flushAnswers, composed_draws]

@[simp] theorem flushAnswer_setSkip (ctr : BitVec 8) (s : State) : flushAnswer (setSkip ctr s) = flushAnswer s := rfl
@[simp] theorem rowsValid_setSkip (ctr : BitVec 8) (s : State) : rowsValid (setSkip ctr s) = rowsValid s := rfl

theorem rowsValid_le (s : State) : rowsValid s ≤ srcH := by
  have := List.countP_le_length (p := fun y => s.rowValid.getLsbD y) (l := List.range srcH)
  rwa [List.length_range] at this

/-- All 144 rows are counted exactly when every flag is set. -/
theorem rowsValid_eq_srcH_iff (s : State) : rowsValid s = srcH ↔ ∀ y < srcH, s.rowValid.getLsbD y = true := by
  have := List.countP_eq_length (p := fun y => s.rowValid.getLsbD y) (l := List.range srcH)
  rw [List.length_range] at this
  unfold rowsValid
  rw [this]
  simp only [List.mem_range]

@[simp] theorem rowsValid_clearRows (s : State) : rowsValid (clearRows s) = 0 := by
  simp [rowsValid, clearRows]

end Sys2Proof.Machine
end

