-- ==== Sys2Proof/Laws/Exec.lean ====
section
/-! SUPPORT. What each command and a step can do, said once. -/

namespace Sys2Proof.Machine

@[simp] theorem exec_nop (s : State) : exec .nop s = .next (respond s) := rfl
@[simp] theorem exec_readStatus (s : State) : exec .readStatus s = .next (respond s) := rfl
@[simp] theorem exec_clearErrors (s : State) : exec .clearErrors s = .next (respond (clearRecoverable s)) := rfl
@[simp] theorem exec_reset (s : State) : exec .reset s = .next (respond (resetSequence s)) := rfl

/-- What an accepted command may make of a state, before its response. -/
inductive Effect : Instr → State → State → Prop where
  | nop (s : State) : Effect .nop s s
  | readStatus (s : State) : Effect .readStatus s s
  | clearErrors (s : State) : Effect .clearErrors s (clearRecoverable s)
  | reset (s : State) : Effect .reset s (resetSequence s)
  | loaded (S D size : Word) (fill : Byte) (s : State)
      (fits : geometryFits Config.maxBufBytes S D size = true) :
      Effect (.config S D size fill) s (loadConfig S D size fill s)
  | mismatch (S D size : Word) (fill : Byte) (s : State)
      (unfit : geometryFits Config.maxBufBytes S D size = false) :
      Effect (.config S D size fill) s (raise .configMismatch s)
  | stored (row : BitVec 8) (payload : List Word) (s : State) (legal : row.toNat < srcH) :
      Effect (.writeScanline row payload) s (storeRow row.toNat (pixel payload) s)
  | malformed (row : BitVec 8) (payload : List Word) (s : State) (illegal : srcH ≤ row.toNat) :
      Effect (.writeScanline row payload) s (raise .malformedScanline s)
  | incomplete (k : Bool) (n : BitVec 8) (s : State) (few : rowsValid s < srcH) :
      Effect (.frameComplete k n) s (clearRows (raise .incompleteFrame s))
  | dropped (k : Bool) (n ctr : BitVec 8) (s : State) (all : rowsValid s = srcH)
      (gate : gateStep k n s.skipCtr = (.drop, ctr)) :
      Effect (.frameComplete k n) s (clearRows (setOutcome .dropped (setSkip ctr s)))
  | composited (k : Bool) (n ctr : BitVec 8) (s : State) (all : rowsValid s = srcH)
      (gate : gateStep k n s.skipCtr = (.compositeNow, ctr)) (inside : addressesInside s = true)
      (ok : flushAnswer s = true) :
      Effect (.frameComplete k n) s
        (clearRows (setOutcome .composited (flushDone (composed Config.params (setSkip ctr s)))))
  | flushFailure (k : Bool) (n ctr : BitVec 8) (s : State) (all : rowsValid s = srcH)
      (gate : gateStep k n s.skipCtr = (.compositeNow, ctr)) (inside : addressesInside s = true)
      (failed : flushAnswer s = false) :
      Effect (.frameComplete k n) s (clearRows (flushFailed (composed Config.params (setSkip ctr s))))

/-- No effect touches the responses; the command's own comes after it. -/
theorem Effect.outbox_eq {i : Instr} {s u : State} (h : Effect i s u) : u.outbox = s.outbox := by cases h <;> simp

theorem blockState_configured {s : State} (h : s.halted = false) (hv : s.cfgValid = true) :
    blockState s = .configured := by simp [blockState, h, hv]

theorem blockState_unconfigured {s : State} (h : s.halted = false) (hv : s.cfgValid = false) :
    blockState s = .unconfigured := by simp [blockState, h, hv]

/-- A command the state does not accept is refused (R196). -/
theorem exec_refused {i : Instr} {s : State} (h : accepts i (blockState s) = false) : exec i s = .next (refuse s) := by
  unfold blockState at h
  cases i <;> cases hh : s.halted <;> cases hv : s.cfgValid <;>
    simp_all [accepts, exec, execConfig, configure, execWriteScanline, execFrameComplete, frameComplete]

/-- A command that ends in a next state was refused, or had one of its effects and responded. -/
theorem exec_next_cases {i : Instr} {s t : State} (h : exec i s = .next t) :
    (accepts i (blockState s) = false ∧ t = refuse s)
      ∨ (accepts i (blockState s) = true ∧ ∃ u, Effect i s u ∧ t = respond u) := by
  cases ha : accepts i (blockState s) with
  | false =>
    rw [exec_refused ha] at h
    exact .inl ⟨rfl, by injection h with h; exact h.symm⟩
  | true =>
    refine .inr ⟨rfl, ?_⟩
    unfold blockState at ha
    cases i with
    | nop => exact ⟨s, .nop s, by simpa using h.symm⟩
    | readStatus => exact ⟨s, .readStatus s, by simpa using h.symm⟩
    | clearErrors => exact ⟨_, .clearErrors s, by simpa using h.symm⟩
    | reset => exact ⟨_, .reset s, by simpa using h.symm⟩
    | config S D size fill =>
      have hs : s.halted = false ∧ s.cfgValid = false := by
        cases hh : s.halted <;> cases hv : s.cfgValid <;> simp_all [accepts]
      simp only [exec, execConfig, configure, hs.1, hs.2, Bool.or_self, Bool.false_eq_true, if_false] at h
      split at h
      next hf => exact ⟨_, .loaded S D size fill s hf, by injection h with h; exact h.symm⟩
      next hf => exact ⟨_, .mismatch S D size fill s (by simpa using hf), by injection h with h; exact h.symm⟩
    | writeScanline row payload =>
      have hs : s.halted = false ∧ s.cfgValid = true := by
        cases hh : s.halted <;> cases hv : s.cfgValid <;> simp_all [accepts]
      simp only [exec, execWriteScanline, hs.1, hs.2, Bool.not_true, Bool.or_self, Bool.false_eq_true, if_false] at h
      split at h
      next hf => exact ⟨_, .malformed row payload s hf, by injection h with h; exact h.symm⟩
      next hf => exact ⟨_, .stored row payload s (Nat.lt_of_not_le hf), by injection h with h; exact h.symm⟩
    | frameComplete k n =>
      have hs : s.halted = false ∧ s.cfgValid = true := by
        cases hh : s.halted <;> cases hv : s.cfgValid <;> simp_all [accepts]
      have hn : ¬ (s.halted || !s.cfgValid) = true := by simp [hs.1, hs.2]
      unfold exec execFrameComplete frameComplete at h
      dsimp only at h
      rw [if_neg hn] at h
      split at h
      next hf => exact ⟨_, .incomplete k n s hf, by injection h with h; exact h.symm⟩
      next hf =>
        have hall : rowsValid s = srcH := le_antisymm (rowsValid_le s) (Nat.le_of_not_lt hf)
        split at h
        next ctr hg => exact ⟨_, .dropped k n ctr s hall hg, by injection h with h; exact h.symm⟩
        next ctr hg =>
          split at h
          next hi =>
            injection h with h
            unfold compositeFrame at h
            rw [flushAnswer_setSkip] at h
            split at h
            next hk => exact ⟨_, .composited k n ctr s hall hg hi hk, h.symm⟩
            next hk => exact ⟨_, .flushFailure k n ctr s hall hg hi (by simpa using hk), h.symm⟩
          next => cases h

/-- What a step does: it waits, rejects an illegal command, or executes the command at the head of the channel. -/
theorem step_next_cases {s t : State} (h : step s = .next t) :
    (decode s.inbox = .unfinished ∧ t = s)
      ∨ (∃ why rest, decode s.inbox = .illegal why rest ∧ t = illegalCommand (consume rest s))
      ∨ (∃ i rest, decode s.inbox = .command i rest ∧ exec i (consume rest s) = .next t) := by
  unfold step at h
  split at h
  next i rest hd => exact .inr (.inr ⟨i, rest, hd, h⟩)
  next why rest hd => exact .inr (.inl ⟨why, rest, hd, by injection h with h; exact h.symm⟩)
  next hd => exact .inl ⟨hd, by injection h with h; exact h.symm⟩

end Sys2Proof.Machine
end

