-- ==== Sys2Proof/Laws/Frame.lean ====
section
/-! SUPPORT. The reads of the three memories, the flush, the gate, and the path each frame command takes. -/

namespace Sys2Proof.Machine

theorem planeCell_congr {s t : State} (h : s.plane = t.plane) (he : s.ramEpoch = t.ramEpoch) :
    planeCell s = planeCell t := by
  funext y x
  rw [planeCell, planeCell, h, he]

theorem dpbByte_congr {s t : State} (h : s.dpb = t.dpb) (he : s.ramEpoch = t.ramEpoch) : dpbByte s = dpbByte t := by
  funext a
  rw [dpbByte, dpbByte, h, he]

theorem outByte_congr {s t : State} (h : s.out = t.out) : outByte s = outByte t := by
  funext a
  rw [outByte, outByte, h]

@[simp] theorem planeCell_setSkip (ctr : BitVec 8) (s : State) : planeCell (setSkip ctr s) = planeCell s :=
  planeCell_congr (by simp) (by simp)

/-- The memories of the reset state are canonical. -/
theorem wf_reset : State.reset.plane.wf ∧ State.reset.dpb.wf ∧ State.reset.out.wf := by simp [State.reset]

/-! ### The racing writes of a flush -/

/-- A byte after the racing writes: as the flush left it, or inside the surface and one of the written values. -/
theorem read?_landRivals (n size : Nat) (l : List Host.Cell) (j : Nat) (m : Memory Byte) (a : Nat) :
    (landRivals n size j l m).read? a = m.read? a
      ∨ (a < size ∧ ∃ v, (a, v) ∈ l ∧ (landRivals n size j l m).read? a = some v) := by
  induction l generalizing j m with
  | nil => exact .inl rfl
  | cons c l ih =>
    obtain ⟨b, w⟩ := c
    rw [landRivals]
    rcases ih (j + 1) (if decide (b < size) && Config.rivalWins n j then m.write b w else m) with h | ⟨ha, v, hv, h⟩
    · rw [h]
      split
      next hb =>
        rw [Memory.read?_write]
        split
        next hab => subst hab; simp at hb; exact .inr ⟨hb.1, w, by simp, rfl⟩
        next => exact .inl rfl
      next => exact .inl rfl
    · exact .inr ⟨ha, v, by simp [hv], h⟩

theorem wf_landRivals (n size : Nat) (l : List Host.Cell) (j : Nat) {m : Memory Byte} (h : m.wf) :
    (landRivals n size j l m).wf := by
  induction l generalizing j m with
  | nil => exact h
  | cons c l ih =>
    rw [landRivals]
    split
    · exact ih _ (Memory.wf_write h _ _)
    · exact ih _ h

theorem mem_landRivals {n size : Nat} {l : List Host.Cell} {j : Nat} {m : Memory Byte} {c : Nat × Byte}
    (h : c ∈ landRivals n size j l m) : c.1 < size ∨ c ∈ m := by
  induction l generalizing j m with
  | nil => exact .inr h
  | cons d l ih =>
    rw [landRivals] at h
    split at h
    next hd =>
      rcases ih h with h | h
      · exact .inl h
      · rcases Memory.mem_write h with h | h
        · simp at hd; exact .inl (by rw [h]; exact hd.1)
        · exact .inr h
    next => exact ih h

/-- After a successful flush a byte nobody raced for holds the DPB byte. -/
theorem outByte_flushDone {s : State} {a : Nat} (ha : a < s.cfgBufSize.toNat) (hr : ∀ c ∈ s.rivals, c.1 ≠ a) :
    outByte (flushDone s) a = dpbByte s a := by
  simp only [outByte, flushDone_out]
  rcases read?_landRivals s.draws s.cfgBufSize.toNat s.rivals 0 (copiedOut s) a with h | ⟨_, v, hv, _⟩
  · rw [h, copiedOut, Memory.read?_writeRange, if_pos (by simp [ha])]
    simp only [Option.getD_some, Nat.sub_zero]
  · exact absurd rfl (hr (a, v) hv)

/-- A successful flush leaves OUT beyond the buffer as it was. -/
theorem read?_out_flushDone {s : State} {a : Nat} (ha : s.cfgBufSize.toNat ≤ a) :
    (flushDone s).out.read? a = s.out.read? a := by
  simp only [flushDone_out]
  rcases read?_landRivals s.draws s.cfgBufSize.toNat s.rivals 0 (copiedOut s) a with h | ⟨h, _⟩
  · rw [h, copiedOut, Memory.read?_writeRange, if_neg (by omega)]
  · omega

/-! ### The paths of the frame commands -/

/-- The gate lets the frame through, and how it reloads the counter. -/
theorem gateStep_now {k : Bool} {n ctr : BitVec 8} (h : k = false ∨ ctr = 0) :
    gateStep k n ctr = (.compositeNow, if k = false ∨ n = 0 then 0 else n - 1) := by
  unfold gateStep
  rcases h with rfl | rfl
  · simp
  · cases k <;> simp

theorem gateStep_drop {n ctr : BitVec 8} (h : ctr ≠ 0) : gateStep true n ctr = (.drop, ctr - 1) := by
  rw [gateStep, if_neg (by simp), if_neg h]

theorem exec_frameComplete_incomplete {k : Bool} {n : BitVec 8} {s : State} (h1 : s.halted = false)
    (h2 : s.cfgValid = true) (h3 : rowsValid s < srcH) :
    exec (.frameComplete k n) s = .next (respond (clearRows (raise .incompleteFrame s))) := by
  rw [exec, execFrameComplete, frameComplete, if_neg (by simp [h1, h2]), if_pos h3]

theorem exec_frameComplete_drop {n : BitVec 8} {s : State} (h1 : s.halted = false) (h2 : s.cfgValid = true)
    (h3 : rowsValid s = srcH) (h4 : s.skipCtr ≠ 0) :
    exec (.frameComplete true n) s
      = .next (respond (clearRows (setOutcome .dropped (setSkip (s.skipCtr - 1) s)))) := by
  rw [exec, execFrameComplete, frameComplete, if_neg (by simp [h1, h2]), if_neg (by omega), gateStep_drop h4]

theorem exec_frameComplete_composite {k : Bool} {n : BitVec 8} {s : State} (h1 : s.halted = false)
    (h2 : s.cfgValid = true) (h3 : rowsValid s = srcH) (h4 : k = false ∨ s.skipCtr = 0)
    (h5 : bytesNeeded s.cfgS s.cfgD ≤ s.cfgBufSize.toNat) :
    exec (.frameComplete k n) s
      = .next (respond (clearRows
          (compositeFrame Config.params (setSkip (if k = false ∨ n = 0 then 0 else n - 1) s)))) := by
  rw [exec, execFrameComplete, frameComplete, if_neg (by simp [h1, h2]), if_neg (by omega), gateStep_now h4]
  dsimp only
  rw [if_pos (by simp [addressesInside, h5])]

theorem exec_writeScanline_stored {row : BitVec 8} {payload : List Word} {s : State} (h1 : s.halted = false)
    (h2 : s.cfgValid = true) (h3 : row.toNat < srcH) :
    exec (.writeScanline row payload) s = .next (respond (storeRow row.toNat (pixel payload) s)) := by
  rw [exec, execWriteScanline, if_neg (by simp [h1, h2]), if_neg (by omega)]

theorem geometryFits_iff {cap : Nat} {S D size : Word} :
    geometryFits cap S D size = true ↔ bytesNeeded S D ≤ size.toNat ∧ size.toNat ≤ cap := by
  simp only [geometryFits, Bool.and_eq_true, decide_eq_true_eq]

theorem exec_config_loaded {S D size : Word} {fill : Byte} {s : State} (h1 : s.halted = false)
    (h2 : s.cfgValid = false) (h3 : geometryFits Config.maxBufBytes S D size = true) :
    exec (.config S D size fill) s = .next (respond (loadConfig S D size fill s)) := by
  rw [exec, execConfig, configure, if_neg (by simp [h1, h2]), if_pos h3]

end Sys2Proof.Machine
end

