-- ==== Sys2Proof/Laws/PerInstr.lean ====
section
/-! SUPPORT. The facts about commands as syntax, one lemma per constructor. -/

namespace Sys2Proof

/-- A WRITE_SCANLINE word's opcode bits, whatever its row. -/
theorem ofBits_writeScanline_word (row : BitVec 8) :
    Opcode.ofBits (cmdOpcode (0x20000000 ||| row.setWidth 32)) = some .writeScanline := by
  revert row; decide

/-- A FRAME_COMPLETE word's opcode bits, whatever K and N. -/
theorem ofBits_frameComplete_word (k : Bool) (n : BitVec 8) :
    Opcode.ofBits (cmdOpcode ((0x30000000 : Word) ||| ((BitVec.ofBool k).setWidth 32 <<< 8) ||| n.setWidth 32))
      = some .frameComplete := by
  revert k n; decide

namespace Laws.EncodedLength

/-- A command's words are as many as its first word says, and as many as the payload column of R71 says. -/
def Statement (i : Instr) : Prop :=
  i.wellFormed = true →
    (encode i).length = commandLength ((encode i).headD 0)
      ∧ (encode i).length = match i with
        | .nop => 1
        | .config _ _ _ _ => 5
        | .writeScanline _ _ => 11
        | .frameComplete _ _ => 1
        | .readStatus => 1
        | .clearErrors => 1
        | .reset => 1

theorem nop : Statement .nop := fun _ => ⟨by decide, rfl⟩

theorem config (s d size : Word) (fill : Byte) : Statement (.config s d size fill) := fun _ =>
  ⟨(by decide : 5 = commandLength 0x10000000), rfl⟩

theorem writeScanline (row : BitVec 8) (payload : List Word) : Statement (.writeScanline row payload) := fun h => by
  have hp : payload.length = 10 := by simpa [Instr.wellFormed] using h
  simp only [encode, List.headD_cons, commandLength, ofBits_writeScanline_word]
  simp [Opcode.payloadWords, hp]

theorem frameComplete (k : Bool) (n : BitVec 8) : Statement (.frameComplete k n) := fun _ => by
  simp only [encode, List.headD_cons, commandLength, ofBits_frameComplete_word]
  simp [Opcode.payloadWords]

theorem readStatus : Statement .readStatus := fun _ => ⟨by decide, rfl⟩

theorem clearErrors : Statement .clearErrors := fun _ => ⟨by decide, rfl⟩

theorem reset : Statement .reset := fun _ => ⟨by decide, rfl⟩

end Laws.EncodedLength

end Sys2Proof
end

