-- ==== Sys2Proof/Tests/Slice0.lean ====
section
/-! SUPPORT. The model's own tests. Expected values come from the vectors of 95_test_vectors.md, named in each comment,
or from the encoding tables; the witnesses show that the hypotheses of the statements can be met. -/

namespace Sys2Proof.Tests

open Sys2Proof Sys2Proof.Machine

/-! ### Helpers -/

/-- The response an outcome carries. -/
def response (o : Host.Outcome State Fault Refusal) : Option Word :=
  match o with
  | .next t => t.outbox.getLast?
  | .fault _ => none
  | .refused _ => none

/-- Something of the next state. -/
def after {α : Type} (f : State → α) (o : Host.Outcome State Fault Refusal) : Option α :=
  match o with
  | .next t => some (f t)
  | .fault _ => none
  | .refused _ => none

/-- "Configured" of the vectors: `CONFIG 400, 52, 96000, 0` has been executed. -/
def configured : State := { State.reset with cfgS := 400, cfgD := 52, cfgBufSize := 96000, cfgValid := true }

/-- Configured with all 144 rows valid. -/
def full : State := { configured with rowValid := BitVec.allOnes 144 }

/-- Halted after a ConfigMismatch: STATUS 0x00000102. -/
def halted : State := { State.reset with halted := true, errConfig := true }

/-- The smallest geometry, S = D = 0 and SIZE = 45 (V-M9), with all rows valid and a flush answer prepared. -/
def smallest (ok : Bool) : State :=
  { State.reset with cfgBufSize := 45, cfgValid := true, rowValid := BitVec.allOnes 144, flushAnswers := [ok] }

/-- A row of equal samples. -/
def fillRow (w : Word) : List Word := List.replicate 10 w

/-! ### WellFormed -/

/-- A payload of nine words is no WRITE_SCANLINE (R71). -/
theorem test_illFormed_short_payload : (Instr.writeScanline 0 (List.replicate 9 0)).wellFormed = false := by decide

/-- A payload of eleven words is no WRITE_SCANLINE (R71). -/
theorem test_illFormed_long_payload : (Instr.writeScanline 0 (List.replicate 11 0)).wellFormed = false := by decide

theorem test_wellFormed_payload : (Instr.writeScanline 255 (fillRow 0)).wellFormed = true := by decide

/-! ### Decoding and encoding -/

/-- V-DC1, V-DC2. -/
theorem test_decode_nop :
    decode [0x00000000, 7] = .command .nop [7] ∧ decode [0x00000001, 7] = .illegal .reservedBits [7] := by decide

/-- V-DC3, V-DC4: the four words go with the illegal command. -/
theorem test_decode_config :
    decode [0x10000000, 1, 2, 3, 0xFF] = .command (.config 1 2 3 0xFF) []
      ∧ decode [0x10000000, 400, 52, 96000, 0x100, 0x40000000] = .illegal .reservedPayload [0x40000000]
      ∧ decode [0x10000000, 400, 52, 96000] = .unfinished := by decide

/-- V-DC5, V-DC7, V-DC8. -/
theorem test_decode_writeScanline :
    decode (0x2000008F :: fillRow 0xE4E4E4E4) = .command (.writeScanline 143 (fillRow 0xE4E4E4E4)) []
      ∧ decode (0x200000FF :: fillRow 0 ++ [9]) = .command (.writeScanline 255 (fillRow 0)) [9]
      ∧ decode (0x20000100 :: fillRow 0 ++ [9]) = .illegal .reservedBits [9] := by decide

/-- V-DC9 to V-DC12. -/
theorem test_decode_frameComplete :
    decode [0x30000000] = .command (.frameComplete false 0) []
      ∧ decode [0x30000103] = .command (.frameComplete true 3) []
      ∧ decode [0x300001FF] = .command (.frameComplete true 255) []
      ∧ decode [0x30000200] = .illegal .reservedBits [] := by decide

/-- V-DC13, V-DC14, V-DC16, V-DC17. -/
theorem test_decode_plain_commands :
    decode [0x40000000] = .command .readStatus [] ∧ decode [0x50000000] = .command .clearErrors []
      ∧ decode [0xF0000000] = .command .reset [] ∧ decode [0xF0000001] = .illegal .reservedBits [] := by decide

/-- V-DC15: 0x6 to 0xE, no payload taken. -/
theorem test_decode_reserved_opcodes :
    ∀ op ∈ [0x6, 0x7, 0x8, 0x9, 0xA, 0xB, 0xC, 0xD, 0xE],
      decode [BitVec.ofNat 32 (op * 0x10000000), 5] = .illegal .reservedOpcode [5] := by decide

/-- The words of R83. -/
theorem test_encode :
    encode (.config 400 52 96000 0xA5) = [0x10000000, 0x190, 0x34, 0x17700, 0xA5]
      ∧ encode (.writeScanline 0x90 (fillRow 1)) = 0x20000090 :: fillRow 1
      ∧ encode (.frameComplete true 3) = [0x30000103] := by decide

/-- No word matches two rows of the opcode map (R77). -/
theorem test_opcode_rows_disjoint :
    [Opcode.nop, .config, .writeScanline, .frameComplete, .readStatus, .clearErrors, .reset].Pairwise
      fun a b => a.pattern &&& b.mask ≠ b.pattern &&& a.mask := by decide

/-- The host's reading of a table row: operand words it gives no bits are 0. -/
theorem test_decodeTableWord :
    decodeTableWord 32 0x2000008F = some (.writeScanline 143 (fillRow 0))
      ∧ decodeTableWord 32 0x10000000 = some (.config 0 0 0 0) ∧ decodeTableWord 32 0x60000000 = none := by decide

/-- The very next step runs the word: an unconfigured FRAME_COMPLETE (V-F7). -/
theorem test_withFetchWord : response (step (State.reset.withFetchWord 32 0x30000000)) = some 0x00000080 := by decide

/-- V-DC18, V-DC19. -/
theorem test_packPixels :
    packPixels ((List.range 160).map fun x => BitVec.ofNat 2 x) = fillRow 0xE4E4E4E4
      ∧ packPixels (List.replicate 159 0 ++ [3]) = List.replicate 9 0 ++ [0xC0000000] := by
  set_option maxRecDepth 8000 in decide

/-- V-DC20: pixel 17 is payload[1][3:2]. -/
theorem test_pixel_17 : pixel (0 :: 0x0000000C :: List.replicate 8 0) 17 = 3 := by decide

/-- V-DC21. -/
theorem test_grayWord :
    grayWord 0 = 0 ∧ grayWord 1 = 0x55555555 ∧ grayWord 2 = 0xAAAAAAAA ∧ grayWord 3 = 0xFFFFFFFF := by decide

/-! ### The assembler -/

/-- The text of R83, upper-case mnemonics, decimal and hexadecimal numbers. -/
theorem test_parseLine :
    parseLine "CONFIG 400, 52, 0x17700, 0xA5" = some (.config 400 52 96000 0xA5)
      ∧ parseLine "FC 1,3" = some (.fc 1 3) ∧ parseLine "RSTAT" = some .rstat
      ∧ parseLine "WSLFILL 144, 0" = some (.wslFill 144 0) ∧ parseLine "FC 1" = none := by decide

/-- The two spellings of `WSL`. -/
theorem test_wslOperands :
    wslOperands [.word ['7'], .comma, .openBrace, .word ['1'], .comma, .word ['3'], .closeBrace]
        = some (.wslPixels 7 [1, 3])
      ∧ wslOperands [.word ['7'], .comma, .word ['0', 'x', 'F', 'f']] = some (.wslWords 7 [255]) := by decide

/-- R84: `FRAMESKIP 3` is 0x30000103, `WSLFILL 144, 0` may be written, `FC 2, 0` may not. -/
theorem test_assembleWords :
    assembleWords (.frameSkip 3) = some [0x30000103] ∧ assembleWords .frame = some [0x30000000]
      ∧ assembleWords (.wslFill 144 1) = some (0x20000090 :: fillRow 0x55555555)
      ∧ assembleWords (.fc 2 0) = none := by decide

/-! ### Commands -/

/-- V-K1, V-K2. -/
theorem test_nop : response (exec .nop State.reset) = some 0x00000000 := by decide

/-- V-K15: after a composited frame with SKIP_CTR = 2. -/
theorem test_readStatus :
    response (exec .readStatus { configured with lastOutcome := .composited, skipCtr := 2 }) = some 0x00020009 := by decide

/-- V-K3, V-K4: SIZE 95697 is the smallest that fits S = 400 and D = 52. -/
theorem test_config_smallest_size :
    response (configure 96000 400 52 95697 0 State.reset) = some 0x00000001
      ∧ response (configure 96000 400 52 95696 0 State.reset) = some 0x00000102 := by decide

/-- V-K5, V-K7, V-K8, V-K9. -/
theorem test_config_refusals :
    response (configure 95000 400 52 96000 0 State.reset) = some 0x00000102
      ∧ response (configure 96000 0 0 44 0 State.reset) = some 0x00000102
      ∧ response (configure 96000 0xFFFFFFFF 0 0xFFFFFFFF 0 State.reset) = some 0x00000102
      ∧ response (exec (.config 400 52 96000 0) configured) = some 0x00000081 := by decide

/-- V-K6: DPB[0..44] = 0x0F. -/
theorem test_config_fills :
    after (fun t => (t.dpb.read? 0, t.dpb.read? 44, t.dpb.read? 45)) (configure 96000 0 0 45 0x0F State.reset)
      = some (some 0x0F, some 0x0F, none) := by
  set_option maxRecDepth 8000 in decide

/-- V-W1, V-W4, V-W6, V-W7. -/
theorem test_writeScanline_responses :
    response (exec (.writeScanline 0 (fillRow 0x55555555)) configured) = some 0x01000001
      ∧ response (exec (.writeScanline 144 (fillRow 0)) configured) = some 0x00000011
      ∧ response (exec (.writeScanline 0 (fillRow 0)) State.reset) = some 0x00000080
      ∧ response (exec (.writeScanline 200 (fillRow 0)) halted) = some 0x00000182 := by
  set_option maxRecDepth 8000 in decide

/-- V-W3: PLANE[143][x] = x mod 4. -/
theorem test_writeScanline_cells :
    after (fun t => [0, 1, 14, 159].map (planeCell t 143)) (exec (.writeScanline 143 (fillRow 0xE4E4E4E4)) configured)
      = some [0, 1, 2, 3] := by
  set_option maxRecDepth 8000 in decide

/-- V-F3, V-F4, V-F5. -/
theorem test_frameComplete_drops :
    response (exec (.frameComplete true 3) { full with skipCtr := 2 }) = some 0x00010005
      ∧ response (exec (.frameComplete false 0) { configured with rowValid := 1 }) = some 0x00000025
      ∧ response (exec (.frameComplete true 3) { full with rowValid := BitVec.allOnes 144 ^^^ 1, skipCtr := 2 })
          = some 0x00020025 := by decide +kernel

/-- V-F1, V-F2, V-F8, V-F9. -/
theorem test_frameComplete_composites :
    response (exec (.frameComplete false 0) (smallest true)) = some 0x00000009
      ∧ response (exec (.frameComplete true 3) (smallest true)) = some 0x00020009
      ∧ response (exec (.frameComplete true 3) (smallest false)) = some 0x00020203
      ∧ response (exec (.frameComplete false 0) (smallest false)) = some 0x00000203 := by decide +kernel

/-- V-K11, V-K12. -/
theorem test_clearErrors :
    response (exec .clearErrors { configured with errMalformed := true, errIncomplete := true }) = some 0x00000001
      ∧ response (exec .clearErrors { halted with errSeq := true }) = some 0x00000102 := by decide

/-- V-K13. -/
theorem test_reset : response (exec .reset halted) = some 0x00000000 := by decide

/-- R242: words under way at a power-on are gone, and the first command after it is the one the host sends next. -/
theorem test_powerOn_then_nop :
    response (step (hostAct (.send 0x00000000) (hostAct .powerOn { full with inbox := [0x20000000, 1, 2] })))
      = some 0x00000000 := by decide

/-- PowerOnRunsTheResetSequence, second clause: a NOP sent after power-on. -/
theorem witness_sent_after_powerOn : decode [0x00000000, 7] = .command .nop [7] := by decide

/-- V-K14, V-X1: an illegal word in a halted block. -/
theorem test_illegal_in_halted :
    response (step { halted with inbox := [0xF0000001] }) = some 0x00000142
      ∧ response (step { halted with inbox := 0x20000100 :: fillRow 0 }) = some 0x00000142 := by decide

/-! ### Sub-blocks -/

/-- V-G1 to V-G10. -/
theorem test_gateStep :
    gateStep false 7 5 = (.compositeNow, 0) ∧ gateStep true 0 0 = (.compositeNow, 0)
      ∧ gateStep true 1 0 = (.compositeNow, 0) ∧ gateStep true 3 0 = (.compositeNow, 2)
      ∧ gateStep true 3 2 = (.drop, 1) ∧ gateStep true 3 1 = (.drop, 0)
      ∧ gateStep true 255 0 = (.compositeNow, 254) ∧ gateStep true 0 7 = (.drop, 6) := by decide

/-- V-G11. -/
theorem test_gateVerdicts :
    gateVerdicts 4 8 0 = [.compositeNow, .drop, .drop, .drop, .compositeNow, .drop, .drop, .drop] := by decide

/-- The table of 95_test_vectors.md 2.4. -/
theorem test_rowPos :
    [0, 1, 2, 3, 4, 5, 47, 48, 95, 96, 100, 142, 143].map rowPos = [0, 2, 4, 5, 7, 9, 79, 80, 159, 160, 167, 237, 239] := by
  set_option maxRecDepth 8000 in decide

/-- V-M4, V-M6. -/
theorem test_pixel_address :
    pixelByte (primBase 400 5) (colL 5) = 2006 ∧ pixelBit .msbFirst (colL 5) = 5 ∧ pixelBit .lsbFirst (colR 5) = 3
      ∧ pixelByte (secBase 400 52 239) (colR 159) = 95696 ∧ pixelBit .msbFirst (colR 159) = 0
      ∧ pixelBit .lsbFirst (colL 159) = 6 := by decide

/-- V-D1. -/
theorem test_dither :
    dither 0 1 0 = ⟨true, false, false, true⟩ ∧ dither 1 1 0 = ⟨false, true, true, false⟩
      ∧ dither 0 2 0 = ⟨false, true, true, false⟩ ∧ dither 0 2 1 = ⟨true, false, false, true⟩ := by decide

/-- V-D4, V-D5. -/
theorem test_setBit :
    setBit .msbFirst (fun _ => 0) [(5, 0x0F)] 0 40 true = [(5, 0x8F)]
      ∧ setBit .msbFirst (fun _ => 0) [(5, 0x8F)] 0 47 false = [(5, 0x8E)]
      ∧ setBit .lsbFirst (fun _ => 0) [(5, 0x0F)] 0 40 false = [(5, 0x0E)]
      ∧ setBit .lsbFirst (fun _ => 0) [(5, 0x0E)] 0 47 true = [(5, 0x8E)] := by decide

/-- V-D3, levels 1 and 2 at p = 0, MSB_FIRST, phase 0: the first byte of a scanline, from its four samples. -/
theorem test_dither_byte :
    ([0, 1, 2, 3].foldl (fun m x => composeSample ⟨.msbFirst, 0⟩ (fun _ => 0) 0 45 0 1 x m) []) = [(5, 0xAA), (50, 0x55)]
      ∧ ([0, 1, 2, 3].foldl (fun m x => composeSample ⟨.msbFirst, 0⟩ (fun _ => 0) 0 45 0 2 x m) [])
          = [(5, 0x55), (50, 0xAA)] := by decide

/-- V-O1 on the smallest buffer, as the copy: OUT takes the DPB byte, a byte beyond the buffer stays. -/
theorem test_copiedOut :
    let s := { State.reset with cfgBufSize := 2, dpb := [(0, 1), (1, 2)], out := [(1, 9), (7, 7)] }
    copiedOut s = [(0, 1), (1, 2), (7, 7)] := by decide

/-- The memory keeps its canonical form: rising places, one entry each. -/
theorem test_memory_write :
    Memory.write (Memory.write [(3, (7 : Byte))] 1 5) 3 8 = [(1, 5), (3, 8)]
      ∧ Memory.writeRange [(0, (1 : Byte)), (2, 3), (9, 9)] 1 2 (fun i => BitVec.ofNat 8 i)
          = [(0, 1), (1, 0), (2, 1), (9, 9)] := by decide

/-! ### Witnesses: the hypotheses of each statement, met together, each clause at a boundary of its range -/

/-- DecodeOfEncodeIsTheCommand. -/
theorem witness_wellFormed : (Instr.writeScanline 255 (fillRow 0xFFFFFFFF)).wellFormed = true := by decide

/-- EncodeOfDecodeIsTheStream. -/
theorem witness_decodes : decode [0xF0000000, 7] = .command .reset [7] := by decide

/-- PackedSamplesAreThePixels, at the first and the last column. -/
theorem witness_row_of_samples : (List.replicate 160 (3 : Gray)).length = 160 ∧ 0 < 160 ∧ 159 < 160 :=
  ⟨List.length_replicate, by decide⟩

/-- AssemblerKeepsTheOperandLimits: an accepted line, and operands at and beyond each limit. -/
theorem witness_assembles :
    assemble (.fc 1 255) = some [.frameComplete true 255]
      ∧ Instr.frameComplete true 255 ∈ [Instr.frameComplete true 255]
      ∧ assembleWords (.fc 1 255) = some [0x300001FF] ∧ assembleWords (.fc 1 256) = none
      ∧ assembleWords (.fc 2 255) = none ∧ assembleWords (.config 0xFFFFFFFF 0 45 256) = none
      ∧ assembleWords (.config 0xFFFFFFFF 0 45 255) = some [0x10000000, 0xFFFFFFFF, 0, 45, 0xFF]
      ∧ assembleWords (.wslWords 255 (List.replicate 10 0xFFFFFFFF)) = some (0x200000FF :: fillRow 0xFFFFFFFF)
      ∧ assembleWords (.wslWords 256 (List.replicate 10 0)) = none
      ∧ assembleWords (.wslWords 0 (List.replicate 10 0x100000000)) = none
      ∧ assembleWords (.wslFill 255 3) = some (0x200000FF :: fillRow 0xFFFFFFFF)
      ∧ assembleWords (.wslFill 255 4) = none ∧ assembleWords (.frameFill 4) = none
      ∧ assembleWords (.frameSkip 255) = some [0x300001FF] ∧ assembleWords (.frameSkip 256) = none := by decide

/-- AssemblerKeepsTheOperandLimits, the pixel spelling at its limits. -/
theorem witness_assembles_pixels :
    (List.replicate 160 3).length = 160 ∧ ¬ (List.replicate 159 3).length = 160
      ∧ (∀ p ∈ List.replicate 160 3, p ≤ 3) ∧ ¬ (∀ p ∈ List.replicate 160 4, p ≤ 3) :=
  ⟨List.length_replicate, by simp, by simp, by simp⟩

/-- StepRunsTheDecodedCommand, both clauses. -/
theorem witness_step_decodes :
    decode ({ State.reset with inbox := [0x300001FF, 7] } : State).inbox = .command (.frameComplete true 255) [7]
      ∧ (Instr.frameComplete true 255).wellFormed = true
      ∧ ({ State.reset with inbox := [0x300001FF, 7] } : State).inbox = encode (.frameComplete true 255) ++ [7] := by decide

/-- StepWaitsForAWholeCommand: an empty channel, and a CONFIG one word short. -/
theorem witness_unfinished :
    (∀ w ws, State.reset.inbox = w :: ws → ws.length + 1 < commandLength w)
      ∧ ∀ w ws, ([0x10000000, 1, 2, 3] : List Word) = w :: ws → ws.length + 1 < commandLength w := by
  constructor
  · intro w ws h; cases h
  · intro w ws h; cases h; decide

/-- ReservedOpcodeIsIllegal at 0x6 and 0xE. -/
theorem witness_reserved_opcode :
    ∀ n ∈ [0x6FFFFFFF, 0xE0000000],
      6 ≤ ((BitVec.ofNat 32 n).extractLsb' 28 4).toNat ∧ ((BitVec.ofNat 32 n).extractLsb' 28 4).toNat ≤ 14 := by decide

/-- ReservedBitIsIllegal, its four clauses, each at the lowest and the highest reserved bit. -/
theorem witness_reserved_bit :
    (∀ n ∈ [0x20000100, 0x28000000],
        Opcode.ofBits ((BitVec.ofNat 32 n).extractLsb' 28 4) = some .writeScanline
          ∧ (fillRow 0).length = Opcode.writeScanline.payloadWords ∧ (BitVec.ofNat 32 n).extractLsb' 8 20 ≠ 0)
      ∧ (∀ n ∈ [0x30000200, 0x38000000],
        Opcode.ofBits ((BitVec.ofNat 32 n).extractLsb' 28 4) = some .frameComplete
          ∧ ([] : List Word).length = Opcode.frameComplete.payloadWords ∧ (BitVec.ofNat 32 n).extractLsb' 9 19 ≠ 0)
      ∧ (∀ n ∈ [0xF0000001, 0xF8000000],
        Opcode.ofBits ((BitVec.ofNat 32 n).extractLsb' 28 4) = some .reset
          ∧ ([] : List Word).length = Opcode.reset.payloadWords ∧ (BitVec.ofNat 32 n).extractLsb' 0 28 ≠ 0)
      ∧ (∀ n ∈ [0x100, 0x80000000],
        Opcode.ofBits ((0x10000000 : Word).extractLsb' 28 4) = some .config
          ∧ ([400, 52, 96000, BitVec.ofNat 32 n] : List Word).length = Opcode.config.payloadWords
          ∧ (([400, 52, 96000, BitVec.ofNat 32 n] : List Word).getD 3 0).extractLsb' 8 24 ≠ 0) := by decide

/-- The channel of ReservedOpcodeIsIllegal and ReservedBitIsIllegal may hold any such word with its payload. -/
theorem witness_channel (w : Word) (payload rest : List Word) :
    ({ State.reset with inbox := w :: payload ++ rest } : State).inbox = w :: payload ++ rest := rfl

/-- OneResponsePerCommand, both clauses. -/
theorem witness_one_response :
    decode ({ State.reset with inbox := [0xF0000000] } : State).inbox = .command .reset []
      ∧ step { State.reset with inbox := [0xF0000000] } = .next (respond (resetSequence State.reset)) :=
  ⟨by decide, rfl⟩

/-- DutifulHostSendsOneCommand: the first word of a command, and the last payload word of one. -/
theorem witness_dutiful :
    dutifulAction State.reset (.send 0x10000000) = true
      ∧ dutifulAction { State.reset with inbox := [0x10000000, 1, 2, 3] } (.send 4) = true := by decide

/-- StatusLayout: a state for each value of LAST_OUTCOME (V-F1, V-F3, reset). -/
theorem witness_outcomes :
    State.reset.lastOutcome = .none ∧ ({ configured with lastOutcome := .dropped } : State).lastOutcome = .dropped
      ∧ status { configured with lastOutcome := .dropped } = 0x00000005
      ∧ ({ configured with lastOutcome := .composited } : State).lastOutcome = .composited
      ∧ status { configured with lastOutcome := .composited } = 0x00000009 := by decide

/-- LastOutcomeIsWrittenByFrameCompleteAndReset, second clause: an incomplete FRAME_COMPLETE and a RESET. -/
theorem witness_lastOutcome :
    (∃ t, exec (.frameComplete false 0) configured = .next t ∧ t.lastOutcome ≠ configured.lastOutcome)
      ∧ ∃ t, exec .reset { configured with lastOutcome := .dropped } = .next t ∧ t.lastOutcome ≠ .dropped :=
  ⟨⟨_, exec_frameComplete_incomplete rfl rfl (by decide), by simp [configured, State.reset]⟩, _, rfl, by simp⟩

/-- AtMostOneErrorPerCommand: a row of 144 in a configured block. -/
theorem witness_one_error :
    after (fun t => (ErrorCond.malformedScanline.flag configured, ErrorCond.malformedScanline.flag t))
      (step { configured with inbox := 0x20000090 :: fillRow 0 }) = some (false, true) := by decide

/-- RefusedCommandsSetErrSeqOnly: halted, configured and unconfigured blocks, and an accepted command with ERR_SEQ set. -/
theorem witness_refused :
    halted.halted = true ∧ configured.cfgValid = true ∧ State.reset.cfgValid = false
      ∧ accepts .nop (blockState { halted with errSeq := true }) = true
      ∧ after (fun t => t.errSeq) (exec .nop { halted with errSeq := true }) = some true := by decide

/-- HaltedUntilReset: a failing flush halts, a RESET ends it, and a CONFIG meets the third clause. -/
theorem witness_halted :
    after (fun t => t.halted) (step { smallest false with inbox := [0x30000000] }) = some true
      ∧ after (fun t => t.halted) (step { halted with inbox := [0xF0000000] }) = some false
      ∧ halted.halted = true ∧ Instr.config 0 0 0 0 ∉ [Instr.nop, .readStatus, .clearErrors, .reset] := by
  decide +kernel

/-- ErrorFlagsAreSticky: a recoverable flag cleared by CLEAR_ERRORS, a fatal one by RESET. -/
theorem witness_sticky :
    after (fun t => ErrorCond.sequenceError.flag t) (step { halted with errSeq := true, inbox := [0x50000000] })
        = some false
      ∧ after (fun t => ErrorCond.configMismatch.flag t) (step { halted with inbox := [0xF0000000] }) = some false := by
  decide

/-- ConfigLoadsAFittingGeometryOrHalts: the state, and a geometry of the second branch at its boundary. Whether a geometry
meets the first branch depends on the open MAX_BUF_BYTES; `witness_config_fits` shows the sizes. -/
theorem witness_config : State.reset.halted = false ∧ State.reset.cfgValid = false
    ∧ ¬ 239 * (0 : Word).toNat + (0 : Word).toNat + 45 ≤ (44 : Word).toNat := by decide

/-- ConfigLoadsForEveryCapacity, at the smallest size and capacity. -/
theorem witness_config_fits :
    State.reset.halted = false ∧ State.reset.cfgValid = false
      ∧ 239 * (400 : Word).toNat + (52 : Word).toNat + 45 ≤ (95697 : Word).toNat ∧ (95697 : Word).toNat ≤ 95697 := by
  decide

/-- The first branch of ConfigLoadsAFittingGeometryOrHalts, for every RAM that holds the source's smallest buffer. -/
theorem witness_config_loads (h : 95697 ≤ Config.maxBufBytes) :
    239 * (400 : Word).toNat + (52 : Word).toNat + 45 ≤ (95697 : Word).toNat ∧ (95697 : Word).toNat ≤ Config.maxBufBytes :=
  ⟨by decide, h⟩

/-- WriteScanlineStoresTheRow, WriteScanlineCountsANewRowOnce and RowsMayComeInAnyOrder, at rows 0 and 143, a new row
and a repeated one. -/
theorem witness_writeScanline :
    configured.halted = false ∧ configured.cfgValid = true ∧ (0 : BitVec 8).toNat < 144 ∧ (143 : BitVec 8).toNat < 144
      ∧ (fillRow 0xE4E4E4E4).length = 10
      ∧ configured.rowValid.getLsbD 143 = false ∧ full.rowValid.getLsbD 143 = true := by decide

/-- The executions that WriteScanlineCountsANewRowOnce and RowsMayComeInAnyOrder assume. -/
theorem witness_writeScanline_runs (r q : BitVec 8) (p p' : List Word) (hr : r.toNat < 144) (hq : q.toNat < 144) :
    ∃ a b, exec (.writeScanline r p) configured = .next a ∧ exec (.writeScanline q p') a = .next b :=
  ⟨_, _, exec_writeScanline_stored rfl rfl hr, exec_writeScanline_stored rfl rfl hq⟩

/-- MalformedRowIsRejected at rows 144 and 255. -/
theorem witness_malformed :
    configured.halted = false ∧ configured.cfgValid = true ∧ 144 ≤ (144 : BitVec 8).toNat ∧ 144 ≤ (255 : BitVec 8).toNat := by
  decide

/-- GateStepVerdicts and OneOfEveryNFramesComposites at the ends of the counter. -/
theorem witness_gate :
    (255 : BitVec 8) ≠ 0 ∧ (1 : BitVec 8) ≠ 0 ∧ 7 < 8 ∧ (0 : BitVec 8).toNat < max (0 : BitVec 8).toNat 1
      ∧ (254 : BitVec 8).toNat < max (255 : BitVec 8).toNat 1 := by decide

/-- IncompleteFrameIsDropped at 0 and 143 valid rows. -/
theorem witness_incomplete :
    configured.halted = false ∧ configured.cfgValid = true ∧ rowsValid configured = 0
      ∧ rowsValid { configured with rowValid := BitVec.allOnes 144 ^^^ 1 } = 143 := by decide +kernel

/-- GateDropsTheFrame at SKIP_CTR 1 and 255. -/
theorem witness_gate_drops :
    full.halted = false ∧ full.cfgValid = true ∧ rowsValid full = 144 ∧ ({ full with skipCtr := 1 } : State).skipCtr ≠ 0
      ∧ ({ full with skipCtr := 255 } : State).skipCtr ≠ 0 := by decide +kernel

/-- FrameIsComposedAndFlushed, FailedFlushHalts and RacingWriteEndsWithEitherValue on the smallest buffer: both answers,
both ways through the gate, the first and the last byte. -/
theorem witness_composited :
    (smallest true).halted = false ∧ (smallest true).cfgValid = true ∧ rowsValid (smallest true) = 144
      ∧ (smallest true).skipCtr = 0
      ∧ 239 * (smallest true).cfgS.toNat + (smallest true).cfgD.toNat + 45 ≤ (smallest true).cfgBufSize.toNat
      ∧ flushAnswer (smallest true) = true ∧ flushAnswer (smallest false) = false
      ∧ 0 < (smallest true).cfgBufSize.toNat ∧ 44 < (smallest true).cfgBufSize.toNat := by decide +kernel

/-- EachMemoryHasItsWriters and EachRegisterHasItsWriters: commands that do write. -/
theorem witness_writers :
    after (fun t => decide (t.plane ≠ [])) (exec (.writeScanline 0 (fillRow 0)) configured) = some true
      ∧ after (fun t => decide (t.dpb ≠ [])) (configure 45 0 0 45 0 State.reset) = some true
      ∧ after (fun t => decide (t.skipCtr ≠ 0)) (exec (.frameComplete true 3) (smallest true)) = some true
      ∧ after (fun t => decide (t.rowValid ≠ 0)) (exec (.writeScanline 0 (fillRow 0)) configured) = some true
      ∧ after (fun t => decide (t.cfgValid ≠ false)) (configure 45 0 0 45 0 State.reset) = some true := by
  decide +kernel

/-- StepKeepsTheInvariant, InvariantRulesOutEveryStop and HostKeepsTheInvariant, in a halted block with a word waiting. -/
theorem witness_invariant_halted : BlockInv { halted with inbox := [0x40000000] } := by
  constructor <;> simp [halted, State.reset]

/-- The smallest buffer filled with 0x5A, a whole white frame in PLANE, and a FRAME_COMPLETE waiting. -/
def written : State :=
  { smallest true with
    plane := (List.range (srcW * srcH)).map fun i => (0 + i, 0)
    dpb := (List.range 45).map fun i => (0 + i, 0x5A)
    cfgFill := 0x5A, inbox := [0x30000000] }

/-- The same in a configured block with a whole frame, for every RAM that holds the smallest buffer. -/
theorem witness_invariant_configured (h : 45 ≤ Config.maxBufBytes) : BlockInv written := by
  have fits : geometryFits Config.maxBufBytes 0 0 45 = true := by simpa [geometryFits, bytesNeeded] using h
  have fill : ∀ a < 45, written.dpb.read? a = some 0x5A := fun a ha => by
    rw [written, Memory.read?_fill, if_pos (by omega)]
  have cells : ∀ k < 23040, (written.plane.read? k).isSome := fun k hk => by
    rw [written, Memory.read?_fill, if_pos (by simp only [srcW, srcH]; omega)]; rfl
  constructor
  case planeWf => simpa [written, List.pairwise_map] using List.pairwise_lt_range
  case dpbWf => simpa [written, List.pairwise_map] using List.pairwise_lt_range
  case outWf => exact List.Pairwise.nil
  case planeBound => intro c hc; simp [written] at hc; obtain ⟨i, hi, rfl⟩ := hc; exact hi
  case dpbBound => intro c hc; simp [written] at hc; obtain ⟨i, hi, rfl⟩ := hc; exact hi
  case outBound => intro c hc; cases hc
  case validRowsWritten => intro y hy _ x hx; exact cells _ (by simp only [planeKey, srcW, srcH] at *; omega)
  case configuredFits => exact fun _ => fits
  case configuredFilled => intro _ a ha; rw [fill a ha]; rfl
  case fillKept => exact fun _ a ha _ => fill a ha
  case unconfigured => intro h; cases h
  case haltedCause => rfl
  case configErrorUnconfigured => intro h; cases h
  case flushErrorConfigured => intro h; cases h
  case flushErrorOutcome => intro h; cases h

/-- FlushCopiesTheFillOutsideTheImage, beside `witness_invariant_configured` and `witness_margin_bytes`: the last margin
byte before the image. -/
theorem witness_fill_outside :
    written.halted = false ∧ written.cfgValid = true ∧ rowsValid written = 144 ∧ written.skipCtr = 0
      ∧ flushAnswer written = true ∧ written.rivals = [] ∧ 4 < written.cfgBufSize.toNat
      ∧ (written.cfgS, written.cfgD) = (0, 0) := by
  decide +kernel

/-- RowPositionClosedForm, VisitedPositions, RowLutIsTheRowPositions, ColumnsCoverTheImageOnce and
PixelAddressesOfASample at the ends of their ranges. -/
theorem witness_ranges :
    0 < 144 ∧ 143 < 144 ∧ 0 < 160 ∧ 159 < 160 ∧ 239 < 240 ∧ 239 % 5 = 4 ∧ (40 ≤ 40 ∧ 40 < 360) ∧ (40 ≤ 359 ∧ 359 < 360) := by
  decide

/-- GeometryFitsIsExact: both sides of the bound (V-M7, V-M8, V-M9). -/
theorem witness_geometry :
    geometryFits 95697 400 52 95697 = true ∧ geometryFits 95697 400 52 95696 = false
      ∧ geometryFits 95696 400 52 95697 = false ∧ geometryFits 10845 45 45 10845 = true
      ∧ geometryFits 45 0 0 45 = true ∧ geometryFits 44 0 0 45 = false := by decide

/-- AliasingOfTwoGeometries, second clause, at the ends of its range. -/
theorem witness_aliasing : 45 ≤ (45 : Word).toNat ∧ 45 ≤ (0xFFFFFFFF : Word).toNat ∧ 0 < 47 ∧ 46 < 47 := by decide

/-- MiddleLevelsMirrorAndSwap and DitherTable. -/
theorem witness_levels :
    ((1 : Gray) = 1 ∨ (1 : Gray) = 2) ∧ ((2 : Gray) = 1 ∨ (2 : Gray) = 2) ∧ (0 : BitVec 1) ^^^ 0 = 0 ∧ (1 : BitVec 1) ^^^ 0 = 1 := by
  decide

/-- SetBitWritesOneBit: another byte, the first and the last bit. -/
theorem witness_setBit : 4 ≠ 0 + 40 / 8 ∧ 0 < 8 ∧ 7 < 8 := by decide

/-- ImageBytesDependOnThePlaneOnly and WhiteFrameLightsEveryImageByte: the first and the last byte of a scanline, and
of the image in the source's geometry (V-M7). -/
theorem witness_image_bytes :
    ImageByte 400 52 5 ∧ ImageByte 400 52 44 ∧ ImageByte 400 52 95696
      ∧ ∀ y < 144, ∀ x < 160, (fun _ _ => 0 : Nat → Nat → Gray) y x = 0 :=
  ⟨⟨0, by decide, false, by decide⟩, ⟨0, by decide, false, by decide⟩,
    ⟨143, by decide, true, by set_option maxRecDepth 8000 in decide⟩, fun _ _ _ _ => rfl⟩

/-- ComposeWritesImageBytesOnly and FlushCopiesTheFillOutsideTheImage: the last byte of the left margin of the first scanline, and the byte after the last. -/
theorem witness_margin_bytes : ¬ ImageByte 0 0 4 ∧ ¬ ImageByte 400 52 4 ∧ ¬ ImageByte 400 52 95697 := by
  refine ⟨?_, ?_, ?_⟩
  · rintro ⟨y, _, sec, h, _⟩
    omega
  · rintro ⟨y, _, sec, h, _⟩
    omega
  · rintro ⟨y, hy, sec, h1, h2⟩
    have hle : rowPos y ≤ 239 := rowPos_le hy
    have hs : (400 : Word).toNat = 400 := rfl
    have hd : (52 : Word).toNat = 52 := rfl
    cases sec <;> simp only [scanBase, primBase, secBase, hs, hd, if_true, Bool.false_eq_true, if_false] at h1 h2 <;> omega

/-- ComposeDrawsEverySample: a geometry whose scanlines lie 50 bytes apart. -/
theorem witness_nonAliasing : NonAliasing 100 50 := by
  have lt : ∀ z < 144, ∀ y < z, rowPos y < rowPos z := by
    intro z
    induction z with
    | zero => intro _ y h; omega
    | succ z ih =>
      intro hz y hy
      have step : rowPos z < rowPos (z + 1) := (show ∀ z < 143, rowPos z < rowPos (z + 1) by decide) z (by omega)
      rcases Nat.lt_succ_iff_lt_or_eq.1 hy with h | rfl
      · exact (ih (by omega) y h).trans step
      · exact step
  intro y hy z hz b c hne
  have hs : (100 : Word).toNat = 100 := rfl
  have hd : (50 : Word).toNat = 50 := rfl
  rcases Nat.lt_trichotomy y z with h | rfl | h
  · have := lt z hz y h
    cases b <;> cases c <;>
      simp only [scanBase, primBase, secBase, hs, hd, if_true, Bool.false_eq_true, if_false] <;> omega
  · cases b <;> cases c <;> simp [scanBase, primBase, secBase] at hne ⊢
  · have := lt y hy z h
    cases b <;> cases c <;>
      simp only [scanBase, primBase, secBase, hs, hd, if_true, Bool.false_eq_true, if_false] <;> omega

/-- LastWriteOfTheComposeOrderStays, first clause: the last write of all, in every geometry. -/
theorem witness_last_write_of_all (o : BitOrder) (S D : Word) :
    ∀ y' < 144, ∀ x' < 160, ∀ sec' right' : Bool,
      writeNumber 143 159 true true < writeNumber y' x' sec' right' →
      ¬ SameDeviceBit o (scanBase S D true (rowPos 143)) (column true 159)
          (scanBase S D sec' (rowPos y')) (column right' x') := by
  intro y' hy' x' hx' sec' right' h
  cases sec' <;> cases right' <;> simp [writeNumber] at h <;> omega

/-- The same where the order of x shows: with S = 400 and D = 1 the write SL of column 0 and the later PL of column 4 go to
one device bit, and no write after that one goes there. -/
theorem witness_order_of_x (o : BitOrder) :
    writeNumber 0 0 true false < writeNumber 0 4 false false
      ∧ SameDeviceBit o (scanBase 400 1 true (rowPos 0)) (column false 0) (scanBase 400 1 false (rowPos 0)) (column false 4)
      ∧ ∀ y' < 144, ∀ x' < 160, ∀ sec' right' : Bool,
          writeNumber 0 4 false false < writeNumber y' x' sec' right' →
          ¬ SameDeviceBit o (scanBase 400 1 false (rowPos 0)) (column false 4)
              (scanBase 400 1 sec' (rowPos y')) (column right' x') := by
  refine ⟨by decide, by cases o <;> decide, ?_⟩
  rintro y' hy' x' hx' sec' right' h ⟨hbyte, hbit⟩
  have later : ∀ y < 144, y ≠ 0 → 1 ≤ rowPos y := by set_option maxRecDepth 8000 in decide
  have hbase : scanBase 400 1 false (rowPos 0) = 0 := by decide
  have hs : (400 : Word).toNat = 400 := rfl
  have hd : (1 : Word).toNat = 1 := rfl
  by_cases hy : y' = 0
  · subst hy
    cases sec'
    · obtain ⟨rfl, rfl⟩ := column_inj (eq_of_device_bit_eq hbyte hbit)
      omega
    · have hsec : scanBase 400 1 true (rowPos 0) = 1 := by decide
      rw [hbase, hsec, pixelByte_column, pixelByte_column] at hbyte
      cases right' <;> simp [writeNumber] at h <;> omega
  · have := later y' hy' hy
    rw [hbase, pixelByte_column, pixelByte_column] at hbyte
    cases sec' <;> simp only [scanBase, primBase, secBase, hs, hd, if_true, Bool.false_eq_true, if_false] at hbyte <;> omega

end Sys2Proof.Tests
end

section
/-! PROOFS. The decoder reads back what the encoder writes, and the statements of 00_scope.md. -/

namespace Sys2Proof

/-! ### The decoder on an encoded command -/

/-- The one path on which the decoder answers a command: a defined opcode, its whole payload, no reserved bit (R81). -/
theorem decode_cons_append {op : Opcode} {w : Word} {payload : List Word} {i : Instr}
    (opcode : Opcode.ofBits (cmdOpcode w) = some op) (whole : payload.length = op.payloadWords)
    (unreserved : w &&& op.mask = op.pattern) (fields : operands op w payload = some i) (rest : List Word) :
    decode (w :: (payload ++ rest)) = .command i rest := by
  simp [decode, opcode, ← whole, unreserved, fields]

/-- The fields of a WRITE_SCANLINE word: no reserved bit, and ROW (R73). -/
theorem writeScanline_word_fields (row : BitVec 8) :
    ((0x20000000 : Word) ||| row.setWidth 32) &&& Opcode.writeScanline.mask = Opcode.writeScanline.pattern
      ∧ cmdRow ((0x20000000 : Word) ||| row.setWidth 32) = row := by
  revert row; decide

/-- The fields of a FRAME_COMPLETE word: no reserved bit, K and N (R74). -/
theorem frameComplete_word_fields (k : Bool) (n : BitVec 8) :
    ((0x30000000 : Word) ||| ((BitVec.ofBool k).setWidth 32 <<< 8) ||| n.setWidth 32) &&& Opcode.frameComplete.mask
        = Opcode.frameComplete.pattern
      ∧ cmdK ((0x30000000 : Word) ||| ((BitVec.ofBool k).setWidth 32 <<< 8) ||| n.setWidth 32) = k
      ∧ cmdN ((0x30000000 : Word) ||| ((BitVec.ofBool k).setWidth 32 <<< 8) ||| n.setWidth 32) = n := by
  revert k n; decide

/-- The fields of CONFIG's last payload word: no reserved bit, and FILL (R75). -/
theorem fill_word_fields (fill : Byte) :
    fillReservedClear (fill.setWidth 32) = true ∧ fillByte (fill.setWidth 32) = fill := by
  revert fill; decide

/-- Every well-formed command decodes from its own words, whatever follows them (R70 to R77, R81). -/
theorem decode_encode_append {i : Instr} (wf : i.wellFormed = true) (rest : List Word) :
    decode (encode i ++ rest) = .command i rest := by
  cases i with
  | nop => exact decode_cons_append (op := .nop) (payload := []) (by decide) rfl (by decide) rfl rest
  | config S D size fill =>
    obtain ⟨clear, byte⟩ := fill_word_fields fill
    exact decode_cons_append (op := .config) (payload := [S, D, size, fill.setWidth 32]) (by decide) rfl (by decide)
      (by simp [operands, clear, byte]) rest
  | writeScanline row payload =>
    obtain ⟨unreserved, hrow⟩ := writeScanline_word_fields row
    have whole : payload.length = Opcode.writeScanline.payloadWords := by
      simpa [Instr.wellFormed, Opcode.payloadWords] using wf
    exact decode_cons_append (ofBits_writeScanline_word row) whole unreserved (by rw [operands, hrow]) rest
  | frameComplete k n =>
    obtain ⟨unreserved, hk, hn⟩ := frameComplete_word_fields k n
    exact decode_cons_append (payload := []) (ofBits_frameComplete_word k n) rfl unreserved
      (by rw [operands, hk, hn]) rest
  | readStatus => exact decode_cons_append (op := .readStatus) (payload := []) (by decide) rfl (by decide) rfl rest
  | clearErrors => exact decode_cons_append (op := .clearErrors) (payload := []) (by decide) rfl (by decide) rfl rest
  | reset => exact decode_cons_append (op := .reset) (payload := []) (by decide) rfl (by decide) rfl rest

namespace Machine

/-! ### The step -/

/-- A step with a command at the head of the channel takes its words off and executes it (R13, R81). -/
theorem step_of_decode {s : State} {i : Instr} {rest : List Word} (h : decode s.inbox = .command i rest) :
    step s = exec i (consume rest s) := by
  simp [step, h]

/-- Settles O6: the decoder's path of `step`, and the encoded command decoded back. -/
theorem stepRunsTheDecodedCommand : Obligations.StepRunsTheDecodedCommand := by
  refine ⟨fun s i rest h => step_of_decode h, fun s i rest wf h => step_of_decode ?_⟩
  rw [h, decode_encode_append wf]

/-! ### CONFIG at any capacity -/

/-- In an unconfigured, running block `configure` loads a geometry that fits its capacity and responds (R192, R193). -/
theorem configure_loaded {cap : Nat} {S D size : Word} {fill : Byte} {s : State} (running : s.halted = false)
    (unconfigured : s.cfgValid = false) (fits : geometryFits cap S D size = true) :
    configure cap S D size fill s = .next (respond (loadConfig S D size fill s)) := by
  rw [configure, if_neg (by simp [running, unconfigured]), if_pos fits]

/-- CONFIG's fill reaches every byte of the new buffer (R192). -/
theorem read?_loadConfig_inside (S D : Word) {size : Word} (fill : Byte) (s : State) {a : Nat} (h : a < size.toNat) :
    (loadConfig S D size fill s).dpb.read? a = some fill := by
  rw [loadConfig_dpb, Memory.read?_writeRange, if_pos (by omega)]

/-- CONFIG leaves every DPB byte outside the new buffer (R192). -/
theorem read?_loadConfig_outside (S D : Word) {size : Word} (fill : Byte) (s : State) {a : Nat} (h : size.toNat ≤ a) :
    (loadConfig S D size fill s).dpb.read? a = s.dpb.read? a := by
  rw [loadConfig_dpb, Memory.read?_writeRange, if_neg (by omega)]

/-- Settles O25: the first clause is the definition of CONFIG, the second the loading path of `configure`. -/
theorem configLoadsForEveryCapacity : Obligations.ConfigLoadsForEveryCapacity := by
  refine ⟨fun S D size fill s => rfl, fun cap S D size fill s running unconfigured needed within => ?_⟩
  have fits : geometryFits cap S D size = true := geometryFits_iff.2 ⟨needed, within⟩
  refine ⟨_, configure_loaded running unconfigured fits, rfl, fun a ha => ?_, fun a ha => ?_⟩
  · rw [respond_dpb, read?_loadConfig_inside S D fill s ha]
  · rw [respond_dpb, read?_loadConfig_outside S D fill s ha]

end Machine

end Sys2Proof
end

section
/-! PROOFS. The fields of STATUS, the reset state, and which command changes which part of the state: the statements of
10_state.md. -/

namespace Sys2Proof.Machine

/-! ### STATUS -/

/-- A placed field read back at its own place. -/
theorem extractLsb'_field {w : Nat} (v : BitVec w) {low : Nat} (fits : low + w ≤ 32) :
    (field v low).extractLsb' low w = v := by
  apply BitVec.eq_of_getLsbD_eq
  intro i hi
  rw [BitVec.getLsbD_extractLsb', getLsbD_field v low (low + i) (by omega)]
  simp [hi]

/-- A placed field is 0 at bits that are not its own. -/
theorem extractLsb'_field_of_disjoint {w : Nat} (v : BitVec w) {low start len : Nat} (within : start + len ≤ 32)
    (disjoint : start + len ≤ low ∨ low + w ≤ start) : (field v low).extractLsb' start len = 0#len := by
  apply BitVec.eq_of_getLsbD_eq
  intro i hi
  rw [BitVec.getLsbD_extractLsb', getLsbD_field v low (start + i) (by omega), BitVec.getLsbD_zero]
  rcases disjoint with before | after
  · simp [show ¬ low ≤ start + i by omega]
  · simp [BitVec.getLsbD_of_ge v (start + i - low) (by omega)]

/-- LAST_OUTCOME stands in STATUS[3:2] (R28, R29). -/
theorem status_lastOutcome (s : State) : (status s).extractLsb' 2 2 = s.lastOutcome.bits := by
  simp (disch := omega) only [status, BitVec.extractLsb'_or, extractLsb'_field, extractLsb'_field_of_disjoint,
    BitVec.or_zero, BitVec.zero_or]

/-- Bits [15:10] of STATUS are reserved (R28). -/
theorem status_reserved (s : State) : (status s).extractLsb' 10 6 = 0 := by
  simp (disch := omega) only [status, BitVec.extractLsb'_or, extractLsb'_field_of_disjoint,
    BitVec.ofNat_eq_ofNat, BitVec.or_zero]

/-- SKIP_CTR stands in STATUS[23:16] (R28). -/
theorem status_skipCtr (s : State) : (status s).extractLsb' 16 8 = s.skipCtr := by
  simp (disch := omega) only [status, BitVec.extractLsb'_or, extractLsb'_field, extractLsb'_field_of_disjoint,
    BitVec.or_zero, BitVec.zero_or]

/-- The row count stands in STATUS[31:24] (R28). -/
theorem status_rowsValid (s : State) : (status s).extractLsb' 24 8 = BitVec.ofNat 8 (rowsValid s) := by
  simp (disch := omega) only [status, BitVec.extractLsb'_or, extractLsb'_field, extractLsb'_field_of_disjoint,
    BitVec.or_zero, BitVec.zero_or]

/-- Settles O12: the wider fields read back at their places, each lone flag bit by bit. -/
theorem statusLayout : Obligations.StatusLayout := by
  intro s
  have outcome {o : LastOutcome} (h : s.lastOutcome = o) : (status s).extractLsb' 2 2 = o.bits :=
    h ▸ status_lastOutcome s
  have rows : ((status s).extractLsb' 24 8).toNat = rowsValid s := by
    have few : rowsValid s < 2 ^ 8 := Nat.lt_of_le_of_lt (rowsValid_le s) (by decide)
    rw [status_rowsValid, BitVec.toNat_ofNat, Nat.mod_eq_of_lt few]
  refine ⟨?_, ?_, outcome, outcome, outcome, ?_, ?_, ?_, ?_, ?_, ?_, status_reserved s, status_skipCtr s, rows⟩
  all_goals
    rw [getLsbD_status s _ (by decide)]
    cases s.lastOutcome <;> simp [LastOutcome.bits]

/-! ### The reset state -/

/-- No error flag is set in the reset state (R35). -/
theorem flag_reset (e : ErrorCond) : e.flag State.reset = false := by cases e <;> rfl

/-- Settles O22: the fields of the reset state, read off its definition. -/
theorem resetValues : Obligations.ResetValues :=
  ⟨fun y _ => by simp [State.reset], rfl, rfl, rfl, rfl, rfl, rfl, rfl, rfl, flag_reset, by decide⟩

/-- Settles O40: the memories list nothing, no row is valid, and CFG_VALID and every error flag are clear. -/
theorem invariantHoldsAtReset : Obligations.InvariantHoldsAtReset := by
  obtain ⟨planeWf, dpbWf, outWf⟩ := wf_reset
  have unset {p : Prop} (valid : State.reset.cfgValid = true) : p := nomatch valid
  have noError {p : Prop} (e : ErrorCond) (raised : e.flag State.reset = true) : p := by simp [flag_reset] at raised
  exact {
    planeWf, dpbWf, outWf
    planeBound := fun _ listed => nomatch listed
    dpbBound := fun _ listed => nomatch listed
    outBound := fun _ listed => nomatch listed
    validRowsWritten := fun y _ valid => by simp [State.reset] at valid
    configuredFits := unset
    configuredFilled := unset
    fillKept := unset
    unconfigured := fun _ => ⟨rfl, rfl, rfl, rfl, rfl, rfl, rfl, rfl, rfl⟩
    haltedCause := rfl
    configErrorUnconfigured := noError .configMismatch
    flushErrorConfigured := noError .outputWriteFailure
    flushErrorOutcome := noError .outputWriteFailure }

/-! ### Which commands the state accepts -/

/-- CONFIG is accepted in an unconfigured, running block only (R196). -/
theorem accepts_config_iff {S D size : Word} {fill : Byte} {s : State} :
    accepts (.config S D size fill) (blockState s) = true ↔ s.halted = false ∧ s.cfgValid = false := by
  cases hh : s.halted <;> cases hv : s.cfgValid <;> simp [accepts, blockState, hh, hv]

/-- FRAME_COMPLETE is accepted in a configured, running block only (R196). -/
theorem accepts_frameComplete_iff {k : Bool} {n : BitVec 8} {s : State} :
    accepts (.frameComplete k n) (blockState s) = true ↔ s.halted = false ∧ s.cfgValid = true := by
  cases hh : s.halted <;> cases hv : s.cfgValid <;> simp [accepts, blockState, hh, hv]

/-! ### What changes, changes by an effect -/

/-- Something of the state that neither the channel, a response nor the record of a refused or illegal command
touches. -/
structure UntouchedByRefusal {α : Type} (f : State → α) : Prop where
  consumed : ∀ rest s, f (consume rest s) = f s
  responded : ∀ s, f (respond s) = f s
  refused : ∀ s, f (raise .sequenceError s) = f s
  rejected : ∀ s, f (raise .illegalCommand s) = f s

/-- Where a command changes such a thing, it was accepted and its effect made the change. -/
theorem UntouchedByRefusal.exec_change {α : Type} {f : State → α} (hf : UntouchedByRefusal f) {i : Instr} {s t : State}
    (run : exec i s = .next t) (change : f t ≠ f s) :
    accepts i (blockState s) = true ∧ ∃ u, Effect i s u ∧ t = respond u ∧ f u ≠ f s := by
  rcases exec_next_cases run with ⟨_, rfl⟩ | ⟨accepted, u, effect, rfl⟩
  · exact absurd (by rw [refuse, hf.responded, hf.refused]) change
  · exact ⟨accepted, u, effect, rfl, by rwa [hf.responded] at change⟩

/-- Where a step changes such a thing, it executed a command whose effect made the change. -/
theorem UntouchedByRefusal.step_change {α : Type} {f : State → α} (hf : UntouchedByRefusal f) {s t : State}
    (run : step s = .next t) (change : f t ≠ f s) :
    ∃ i rest u, decode s.inbox = .command i rest ∧ Effect i (consume rest s) u ∧ t = respond u := by
  rcases step_next_cases run with ⟨_, rfl⟩ | ⟨why, rest, _, rfl⟩ | ⟨i, rest, head, run⟩
  · exact absurd rfl change
  · exact absurd (by rw [illegalCommand, hf.responded, hf.rejected, hf.consumed]) change
  · obtain ⟨_, u, effect, ends, _⟩ := hf.exec_change run (by rwa [hf.consumed])
    exact ⟨i, rest, u, head, effect, ends⟩

/-! ### The writers of each memory -/

/-- PLANE is written by WRITE_SCANLINE, and forgotten by RESET (R22, R50). -/
theorem Effect.writer_of_plane {i : Instr} {s u : State} (h : Effect i s u) (change : u.plane ≠ s.plane) :
    i = .reset ∨ ∃ row payload, i = .writeScanline row payload := by
  cases h with
  | reset => exact .inl rfl
  | stored => exact .inr ⟨_, _, rfl⟩
  | _ => simp at change

/-- DPB is written by CONFIG and FRAME_COMPLETE, and forgotten by RESET (R26). -/
theorem Effect.writer_of_dpb {i : Instr} {s u : State} (h : Effect i s u) (change : u.dpb ≠ s.dpb) :
    i = .reset ∨ (∃ S D size fill, i = .config S D size fill) ∨ ∃ k n, i = .frameComplete k n := by
  cases h with
  | reset => exact .inl rfl
  | loaded => exact .inr (.inl ⟨_, _, _, _, rfl⟩)
  | composited | flushFailure => exact .inr (.inr ⟨_, _, rfl⟩)
  | _ => simp at change

/-- OUT is written by FRAME_COMPLETE's flush (R53). -/
theorem Effect.writer_of_out {i : Instr} {s u : State} (h : Effect i s u) (change : u.out ≠ s.out) :
    ∃ k n, i = .frameComplete k n := by
  cases h with
  | composited | flushFailure => exact ⟨_, _, rfl⟩
  | _ => simp at change

theorem untouchedByRefusal_plane : UntouchedByRefusal State.plane := by constructor <;> simp
theorem untouchedByRefusal_dpb : UntouchedByRefusal State.dpb := by constructor <;> simp
theorem untouchedByRefusal_out : UntouchedByRefusal State.out := by constructor <;> simp

/-- Settles O38: a change comes from the command's effect, and each memory has its writers among the effects. -/
theorem eachMemoryHasItsWriters : Obligations.EachMemoryHasItsWriters := by
  intro i s t run
  refine ⟨fun change => ?_, fun change => ?_, fun change => ?_⟩
  · obtain ⟨_, u, effect, _, change⟩ := untouchedByRefusal_plane.exec_change run change
    exact effect.writer_of_plane change
  · obtain ⟨_, u, effect, _, change⟩ := untouchedByRefusal_dpb.exec_change run change
    exact effect.writer_of_dpb change
  · obtain ⟨_, u, effect, _, change⟩ := untouchedByRefusal_out.exec_change run change
    exact effect.writer_of_out change

/-! ### The writers of each register -/

/-- The configuration registers with CFG_VALID (R27). -/
def configRegisters (s : State) : Word × Word × Word × Byte × Bool :=
  (s.cfgS, s.cfgD, s.cfgBufSize, s.cfgFill, s.cfgValid)

/-- The configuration registers are written by CONFIG and RESET (R27). -/
theorem Effect.writer_of_configRegisters {i : Instr} {s u : State} (h : Effect i s u)
    (change : configRegisters u ≠ configRegisters s) : i = .reset ∨ ∃ S D size fill, i = .config S D size fill := by
  cases h with
  | reset => exact .inl rfl
  | loaded => exact .inr ⟨_, _, _, _, rfl⟩
  | _ => simp [configRegisters] at change

/-- SKIP_CTR is written by FRAME_COMPLETE and RESET (R25). -/
theorem Effect.writer_of_skipCtr {i : Instr} {s u : State} (h : Effect i s u) (change : u.skipCtr ≠ s.skipCtr) :
    i = .reset ∨ ∃ k n, i = .frameComplete k n := by
  cases h with
  | reset => exact .inl rfl
  | dropped | composited | flushFailure => exact .inr ⟨_, _, rfl⟩
  | _ => simp at change

/-- ROW_VALID is written by WRITE_SCANLINE, FRAME_COMPLETE and RESET (R23). -/
theorem Effect.writer_of_rowValid {i : Instr} {s u : State} (h : Effect i s u) (change : u.rowValid ≠ s.rowValid) :
    i = .reset ∨ (∃ row payload, i = .writeScanline row payload) ∨ ∃ k n, i = .frameComplete k n := by
  cases h with
  | reset => exact .inl rfl
  | stored => exact .inr (.inl ⟨_, _, rfl⟩)
  | incomplete | dropped | composited | flushFailure => exact .inr (.inr ⟨_, _, rfl⟩)
  | _ => simp at change

/-- LAST_OUTCOME is written by FRAME_COMPLETE and RESET (R29). -/
theorem Effect.writer_of_lastOutcome {i : Instr} {s u : State} (h : Effect i s u)
    (change : u.lastOutcome ≠ s.lastOutcome) : i = .reset ∨ ∃ k n, i = .frameComplete k n := by
  cases h with
  | reset => exact .inl rfl
  | incomplete | dropped | composited | flushFailure => exact .inr ⟨_, _, rfl⟩
  | _ => simp at change

theorem untouchedByRefusal_configRegisters : UntouchedByRefusal configRegisters := by
  constructor <;> simp [configRegisters]

theorem untouchedByRefusal_skipCtr : UntouchedByRefusal State.skipCtr := by constructor <;> simp
theorem untouchedByRefusal_rowValid : UntouchedByRefusal State.rowValid := by constructor <;> simp
theorem untouchedByRefusal_lastOutcome : UntouchedByRefusal State.lastOutcome := by constructor <;> simp

/-- Settles O39: as for the memories; that CONFIG found the block unconfigured is the table of R196. -/
theorem eachRegisterHasItsWriters : Obligations.EachRegisterHasItsWriters := by
  intro i s t run
  refine ⟨fun change => ?_, fun change => ?_, fun change => ?_⟩
  · obtain ⟨accepted, u, effect, _, change⟩ := untouchedByRefusal_configRegisters.exec_change run change
    rcases effect.writer_of_configRegisters change with rfl | ⟨S, D, size, fill, rfl⟩
    · exact .inl rfl
    · obtain ⟨_, unconfigured⟩ := accepts_config_iff.1 accepted
      exact .inr ⟨unconfigured, S, D, size, fill, rfl⟩
  · obtain ⟨_, u, effect, _, change⟩ := untouchedByRefusal_skipCtr.exec_change run change
    exact effect.writer_of_skipCtr change
  · obtain ⟨_, u, effect, _, change⟩ := untouchedByRefusal_rowValid.exec_change run change
    exact effect.writer_of_rowValid change

/-- The encoding of LAST_OUTCOME leaves 3 out (R29). -/
theorem LastOutcome.bits_ne_three (o : LastOutcome) : o.bits ≠ 3 := by cases o <;> decide

/-- Settles O13: STATUS[3:2] is the encoding, and the writer of LAST_OUTCOME was accepted. -/
theorem lastOutcomeIsWrittenByFrameCompleteAndReset : Obligations.LastOutcomeIsWrittenByFrameCompleteAndReset := by
  refine ⟨fun s => ?_, fun i s t run change => ?_⟩
  · rw [status_lastOutcome]
    exact s.lastOutcome.bits_ne_three
  · obtain ⟨accepted, u, effect, _, change⟩ := untouchedByRefusal_lastOutcome.exec_change run change
    rcases effect.writer_of_lastOutcome change with rfl | ⟨k, n, rfl⟩
    · exact .inl rfl
    · exact .inr ⟨⟨k, n, rfl⟩, accepts_frameComplete_iff.1 accepted⟩

/-! ### The error flags, under each update -/

@[simp] theorem flag_respond (e : ErrorCond) (s : State) : e.flag (respond s) = e.flag s := by
  cases e <;> simp [ErrorCond.flag]

@[simp] theorem flag_consume (e : ErrorCond) (rest : List Word) (s : State) : e.flag (consume rest s) = e.flag s := by
  cases e <;> simp [ErrorCond.flag]

@[simp] theorem flag_clearRows (e : ErrorCond) (s : State) : e.flag (clearRows s) = e.flag s := by
  cases e <;> simp [ErrorCond.flag]

@[simp] theorem flag_setSkip (e : ErrorCond) (ctr : BitVec 8) (s : State) : e.flag (setSkip ctr s) = e.flag s := by
  cases e <;> simp [ErrorCond.flag]

@[simp] theorem flag_setOutcome (e : ErrorCond) (o : LastOutcome) (s : State) :
    e.flag (setOutcome o s) = e.flag s := by
  cases e <;> simp [ErrorCond.flag]

@[simp] theorem flag_storeRow (e : ErrorCond) (row : Nat) (px : Nat → Gray) (s : State) :
    e.flag (storeRow row px s) = e.flag s := by
  cases e <;> simp [ErrorCond.flag]

@[simp] theorem flag_loadConfig (e : ErrorCond) (S D size : Word) (fill : Byte) (s : State) :
    e.flag (loadConfig S D size fill s) = e.flag s := by
  cases e <;> simp [ErrorCond.flag]

@[simp] theorem flag_composed (e : ErrorCond) (P : Params) (s : State) : e.flag (composed P s) = e.flag s := by
  cases e <;> simp [ErrorCond.flag]

@[simp] theorem flag_flushDone (e : ErrorCond) (s : State) : e.flag (flushDone s) = e.flag s := by
  cases e <;> simp [ErrorCond.flag]

/-- A failed flush raises OutputWriteFailure and no other condition (R181). -/
@[simp] theorem flag_flushFailed (e : ErrorCond) (s : State) :
    e.flag (flushFailed s) = (decide (e = .outputWriteFailure) || e.flag s) := by
  cases e <;> simp [ErrorCond.flag]

/-- Clearing the recoverable flags keeps the fatal ones (R194). -/
@[simp] theorem flag_clearRecoverable (e : ErrorCond) (s : State) :
    e.flag (clearRecoverable s) = (e.fatal && e.flag s) := by
  cases e <;> simp [ErrorCond.flag, ErrorCond.fatal]

/-- The reset sequence clears every flag (R241). -/
@[simp] theorem flag_resetSequence (e : ErrorCond) (s : State) : e.flag (resetSequence s) = false := by
  cases e <;> simp [ErrorCond.flag]

/-! ### Sticky flags -/

/-- Of the effects only RESET clears a flag, and CLEAR_ERRORS a recoverable one (R30). -/
theorem Effect.clears_flag {i : Instr} {s u : State} {e : ErrorCond} (h : Effect i s u) (before : e.flag s = true)
    (after : e.flag u = false) : i = .reset ∨ (e.fatal = false ∧ i = .clearErrors) := by
  cases h with
  | reset => exact .inl rfl
  | clearErrors => exact .inr ⟨by simpa [before] using after, rfl⟩
  | _ => simp [raise_flag, before] at after

/-- Settles O18: a wait, an illegal command and a refusal clear no flag, and the effects that do are two. -/
theorem errorFlagsAreSticky : Obligations.ErrorFlagsAreSticky := by
  intro s t e run before after
  rcases step_next_cases run with ⟨_, rfl⟩ | ⟨why, rest, _, rfl⟩ | ⟨i, rest, head, run⟩
  · simp [before] at after
  · simp [illegalCommand, raise_flag, before] at after
  · rcases exec_next_cases run with ⟨_, rfl⟩ | ⟨_, u, effect, rfl⟩
    · simp [refuse, raise_flag, before] at after
    · rcases effect.clears_flag (e := e) (by simpa using before) (by simpa using after) with rfl | ⟨recoverable, rfl⟩
      · exact .inl ⟨rest, head⟩
      · exact .inr ⟨recoverable, rest, head⟩

/-! ### HALTED -/

/-- An effect that halts the block raises a fatal condition (R31). -/
theorem Effect.fatal_of_halts {i : Instr} {s u : State} (h : Effect i s u) (before : s.halted = false)
    (after : u.halted = true) : u.errConfig = true ∨ u.errFlush = true := by
  cases h with
  | mismatch => exact .inl rfl
  | flushFailure => exact .inr (by simp)
  | _ => simp [before, ErrorCond.fatal] at after

/-- An effect that raises a fatal condition halts the block (R31, R215, R216). -/
theorem Effect.halts_of_fatal {i : Instr} {s u : State} {e : ErrorCond} (h : Effect i s u) (fatal : e.fatal = true)
    (before : e.flag s = false) (after : e.flag u = true) : u.halted = true := by
  cases h with
  | mismatch => simp [ErrorCond.fatal]
  | flushFailure => simp
  | malformed =>
    obtain rfl : e = .malformedScanline := by simpa [raise_flag, before] using after
    cases fatal
  | incomplete =>
    obtain rfl : e = .incompleteFrame := by simpa [raise_flag, before] using after
    cases fatal
  | _ => simp [before] at after

/-- Only RESET ends HALTED (R31). -/
theorem Effect.reset_of_unhalts {i : Instr} {s u : State} (h : Effect i s u) (before : s.halted = true)
    (after : u.halted = false) : i = .reset := by
  cases h with
  | reset => rfl
  | _ => simp [before] at after

/-- HALTED is not touched by a refusal: the conditions it records are recoverable (R31). -/
theorem untouchedByRefusal_halted : UntouchedByRefusal State.halted := by
  constructor <;> simp [ErrorCond.fatal]

/-- The flag of a fatal condition is not touched by a refusal. -/
theorem untouchedByRefusal_flag {e : ErrorCond} (fatal : e.fatal = true) : UntouchedByRefusal fun s => e.flag s := by
  have notSequence : e ≠ .sequenceError := by rintro rfl; cases fatal
  have notIllegal : e ≠ .illegalCommand := by rintro rfl; cases fatal
  constructor <;> simp [raise_flag, notSequence, notIllegal]

/-- A step that raises a fatal condition ends halted (R31, R215, R216). -/
theorem step_halts_of_fatal {s t : State} {e : ErrorCond} (run : step s = .next t) (fatal : e.fatal = true)
    (before : e.flag s = false) (after : e.flag t = true) : t.halted = true := by
  obtain ⟨i, rest, u, _, effect, rfl⟩ := (untouchedByRefusal_flag fatal).step_change run (by simp [before, after])
  simpa using effect.halts_of_fatal fatal (by simpa using before) (by simpa using after)

/-- A halted block refuses every command but NOP, READ_STATUS, CLEAR_ERRORS and RESET (R31, R196). -/
theorem accepts_eq_false_of_halted {i : Instr} {s : State} (halted : s.halted = true) (nop : i ≠ .nop)
    (readStatus : i ≠ .readStatus) (clearErrors : i ≠ .clearErrors) (reset : i ≠ .reset) :
    accepts i (blockState s) = false := by
  have state : blockState s = .halted := by simp [blockState, halted]
  cases i with
  | nop => exact absurd rfl nop
  | readStatus => exact absurd rfl readStatus
  | clearErrors => exact absurd rfl clearErrors
  | reset => exact absurd rfl reset
  | config | writeScanline | frameComplete => simp [accepts, state]

/-- Settles O17: HALTED and the fatal flags change by effects only, and the table of R196 refuses the rest. -/
theorem haltedUntilReset : Obligations.HaltedUntilReset := by
  refine ⟨fun s t run before after => ?_, fun s t run raised => ?_, fun s t run before after => ?_,
    fun i s halted nop readStatus clearErrors reset => ?_⟩
  · obtain ⟨i, rest, u, _, effect, rfl⟩ := untouchedByRefusal_halted.step_change run (by simp [before, after])
    simpa using effect.fatal_of_halts (by simpa using before) (by simpa using after)
  · rcases raised with ⟨before, after⟩ | ⟨before, after⟩
    · exact step_halts_of_fatal (e := .configMismatch) run rfl before after
    · exact step_halts_of_fatal (e := .outputWriteFailure) run rfl before after
  · obtain ⟨i, rest, u, head, effect, rfl⟩ := untouchedByRefusal_halted.step_change run (by simp [before, after])
    rw [effect.reset_of_unhalts (by simpa using before) (by simpa using after)] at head
    exact ⟨rest, head⟩
  · exact exec_refused (accepts_eq_false_of_halted halted nop readStatus clearErrors reset)

/-! ### The fill around a composited frame -/

/-- The compose pass leaves every DPB byte outside the image (R167). -/
theorem read?_composed_outside (P : Params) {s : State} {a : Nat} (outside : ¬ ImageByte s.cfgS s.cfgD a) :
    (composed P s).dpb.read? a = s.dpb.read? a := by
  rw [composed_dpb, composePass_eq_putAll]
  refine read?_putAll_of_forall_ne _ _ _ _ fun w hw here => outside ?_
  exact here ▸ imageByte_of_mem_passWrites hw

/-- A frame that composites with a flush that succeeds (R120, R180). -/
theorem exec_frameComplete_flushed {k : Bool} {n : BitVec 8} {s : State} (running : s.halted = false)
    (configured : s.cfgValid = true) (all : rowsValid s = srcH) (now : k = false ∨ s.skipCtr = 0)
    (fits : bytesNeeded s.cfgS s.cfgD ≤ s.cfgBufSize.toNat) (ok : flushAnswer s = true) :
    exec (.frameComplete k n) s
      = .next (respond (clearRows (setOutcome .composited (flushDone (composed Config.params
          (setSkip (if k = false ∨ n = 0 then 0 else n - 1) s)))))) := by
  rw [exec_frameComplete_composite running configured all now fits, compositeFrame, flushAnswer_setSkip, if_pos ok]

/-- While the block is configured its buffer holds the bytes the pass needs (R27, R147). -/
theorem BlockInv.bytesNeeded_le {s : State} (inv : BlockInv s) (configured : s.cfgValid = true) :
    bytesNeeded s.cfgS s.cfgD ≤ s.cfgBufSize.toNat :=
  (geometryFits_iff.1 (inv.configuredFits configured)).1

/-- Settles O36: the pass keeps the byte, and the flush copies it. -/
theorem flushCopiesTheFillOutsideTheImage : Obligations.FlushCopiesTheFillOutsideTheImage := by
  intro k n s a inv running configured all now ok unraced inside outside
  have filled : s.dpb.read? a = some s.cfgFill := inv.fillKept configured a inside outside
  have kept (ctr : BitVec 8) : (composed Config.params (setSkip ctr s)).dpb.read? a = some s.cfgFill := by
    rw [read?_composed_outside Config.params (by simpa using outside), setSkip_dpb, filled]
  refine ⟨_, exec_frameComplete_flushed running configured all now (inv.bytesNeeded_le configured) ok, filled, ?_, ?_⟩
  · simpa only [respond_dpb, clearRows_dpb, setOutcome_dpb, flushDone_dpb] using kept _
  · rw [outByte_congr (respond_out _), outByte_congr (clearRows_out _), outByte_congr (setOutcome_out _ _),
      outByte_flushDone (by simpa using inside) (by simpa using unraced), dpbByte, kept, Option.getD_some]

end Sys2Proof.Machine
end

section
/-! PROOFS. The invariant of the block: each operation of the commands keeps it, so every effect and every step does,
and a state that meets it never stops: the statements of 20_memory.md. -/

namespace Sys2Proof.Machine

/-! ### What the invariant says of a running or configured block -/

/-- WRITE_SCANLINE is accepted in a configured, running block only (R196). -/
theorem accepts_writeScanline_iff {row : BitVec 8} {payload : List Word} {s : State} :
    accepts (.writeScanline row payload) (blockState s) = true ↔ s.halted = false ∧ s.cfgValid = true := by
  cases hh : s.halted <;> cases hv : s.cfgValid <;> simp [accepts, blockState, hh, hv]

/-- In a running block neither fatal flag is set (R31). -/
theorem BlockInv.no_fatal_flag {s : State} (inv : BlockInv s) (running : s.halted = false) :
    s.errConfig = false ∧ s.errFlush = false := by
  simpa [running] using inv.haltedCause.symm

/-- While the block is configured its buffer fits the RAM (R27, R147). -/
theorem BlockInv.bufSize_le_capacity {s : State} (inv : BlockInv s) (configured : s.cfgValid = true) :
    s.cfgBufSize.toNat ≤ Config.maxBufBytes :=
  (geometryFits_iff.1 (inv.configuredFits configured)).2

/-- While the block is unconfigured no DPB byte is known (R26, R52). -/
theorem BlockInv.dpb_eq_nil {s : State} (inv : BlockInv s) (unconfigured : s.cfgValid = false) : s.dpb = [] := by
  obtain ⟨_, _, noBuffer, _⟩ := inv.unconfigured unconfigured
  exact List.eq_nil_iff_forall_not_mem.2 fun c listed => by simpa [noBuffer] using inv.dpbBound c listed

/-! ### The channel and the flags -/

theorem BlockInv.consume {s : State} (inv : BlockInv s) (rest : List Word) : BlockInv (consume rest s) := { inv with }

theorem BlockInv.respond {s : State} (inv : BlockInv s) : BlockInv (respond s) := { inv with }

theorem BlockInv.raise_sequenceError {s : State} (inv : BlockInv s) : BlockInv (raise .sequenceError s) := { inv with }

theorem BlockInv.raise_illegalCommand {s : State} (inv : BlockInv s) : BlockInv (raise .illegalCommand s) :=
  { inv with }

/-- A malformed row is recorded in a configured block only (R101, R196). -/
theorem BlockInv.raise_malformedScanline {s : State} (inv : BlockInv s) (configured : s.cfgValid = true) :
    BlockInv (raise .malformedScanline s) :=
  { inv with unconfigured := fun unset => by simp [configured] at unset }

/-- An incomplete frame is recorded in a configured block that has not failed a flush (R120, R196). -/
theorem BlockInv.raise_incompleteFrame {s : State} (inv : BlockInv s) (configured : s.cfgValid = true)
    (noFailure : s.errFlush = false) : BlockInv (raise .incompleteFrame s) :=
  { inv with
    unconfigured := fun unset => by simp [configured] at unset
    flushErrorOutcome := fun failed => by simp [noFailure] at failed }

/-- A ConfigMismatch halts a block that stays unconfigured (R215, R221). -/
theorem BlockInv.raise_configMismatch {s : State} (inv : BlockInv s) (unconfigured : s.cfgValid = false) :
    BlockInv (raise .configMismatch s) :=
  { inv with
    haltedCause := by simp [ErrorCond.fatal]
    configErrorUnconfigured := fun _ => unconfigured }

theorem BlockInv.clearRecoverable {s : State} (inv : BlockInv s) : BlockInv (clearRecoverable s) :=
  { inv with
    unconfigured := fun unset => by simp [inv.unconfigured unset] }

/-- The reset sequence forgets PLANE and DPB and clears every register and flag; OUT is not touched (R241). -/
theorem BlockInv.resetSequence {s : State} (inv : BlockInv s) : BlockInv (resetSequence s) :=
  { inv with
    planeWf := .nil
    dpbWf := .nil
    planeBound := fun _ listed => nomatch listed
    dpbBound := fun _ listed => nomatch listed
    validRowsWritten := fun y _ valid => by simp at valid
    configuredFits := fun valid => nomatch valid
    configuredFilled := fun valid => nomatch valid
    fillKept := fun valid => nomatch valid
    unconfigured := fun _ => ⟨rfl, rfl, rfl, rfl, rfl, rfl, rfl, rfl, rfl⟩
    haltedCause := rfl
    configErrorUnconfigured := fun raised => nomatch raised
    flushErrorConfigured := fun raised => nomatch raised
    flushErrorOutcome := fun raised => nomatch raised }

/-! ### The registers of the frame gate -/

theorem BlockInv.clearRows {s : State} (inv : BlockInv s) : BlockInv (clearRows s) :=
  { inv with
    validRowsWritten := fun y _ valid => by simp at valid
    unconfigured := fun unset => by simp [inv.unconfigured unset] }

theorem BlockInv.setSkip {s : State} (inv : BlockInv s) (configured : s.cfgValid = true) (ctr : BitVec 8) :
    BlockInv (setSkip ctr s) :=
  { inv with unconfigured := fun unset => by simp [configured] at unset }

theorem BlockInv.setOutcome {s : State} (inv : BlockInv s) (configured : s.cfgValid = true)
    (noFailure : s.errFlush = false) (o : LastOutcome) : BlockInv (setOutcome o s) :=
  { inv with
    unconfigured := fun unset => by simp [configured] at unset
    flushErrorOutcome := fun failed => by simp [noFailure] at failed }

/-! ### PLANE -/

/-- The rows valid after a store are the stored one and those valid before (R100). -/
theorem getLsbD_storeRow_rowValid {row : Nat} (px : Nat → Gray) (s : State) {y : Nat} (legal : y < srcH) :
    (storeRow row px s).rowValid.getLsbD y = (s.rowValid.getLsbD y || decide (y = row)) := by
  have inRange : y < 144 := legal
  simp [inRange]

/-- A stored row's cells are in the plane's range and every cell of it is written (R51, R100). -/
theorem BlockInv.storeRow {s : State} (inv : BlockInv s) (configured : s.cfgValid = true) {row : Nat}
    (legal : row < srcH) (px : Nat → Gray) : BlockInv (storeRow row px s) :=
  { inv with
    planeWf := Memory.wf_writeRange inv.planeWf _ _ _
    planeBound := fun c listed => by
      rcases Memory.mem_writeRange listed with ⟨_, stored⟩ | before
      · simp only [planeKey, srcW, srcH] at stored legal ⊢
        omega
      · exact inv.planeBound c before
    validRowsWritten := fun y hy valid x hx => by
      rw [getLsbD_storeRow_rowValid px s hy, Bool.or_eq_true, decide_eq_true_eq] at valid
      rw [storeRow_plane, Memory.read?_writeRange]
      split
      next => rfl
      next outside =>
        refine inv.validRowsWritten y hy (valid.resolve_right ?_) x hx
        rintro rfl
        simp only [planeKey, srcW] at outside hx
        omega
    unconfigured := fun unset => by simp [configured] at unset }

/-! ### DPB -/

/-- CONFIG fills the whole buffer of a geometry that fits, in a block whose DPB held nothing known (R192). -/
theorem BlockInv.loadConfig {s : State} (inv : BlockInv s) (running : s.halted = false)
    (unconfigured : s.cfgValid = false) {S D size : Word} (fits : geometryFits Config.maxBufBytes S D size = true)
    (fill : Byte) : BlockInv (loadConfig S D size fill s) := by
  have filled : ∀ a < size.toNat, (Machine.loadConfig S D size fill s).dpb.read? a = some fill := fun a inside =>
    read?_loadConfig_inside S D fill s inside
  exact { inv with
    dpbWf := Memory.wf_writeRange inv.dpbWf _ _ _
    dpbBound := fun c listed => by
      rcases Memory.mem_writeRange listed with ⟨_, inside⟩ | before
      · simpa using inside
      · simp [inv.dpb_eq_nil unconfigured] at before
    configuredFits := fun _ => fits
    configuredFilled := fun _ a inside => by simp only [filled a inside, Option.isSome_some]
    fillKept := fun _ a inside _ => filled a inside
    unconfigured := fun unset => nomatch unset
    configErrorUnconfigured := fun raised => by simp [inv.no_fatal_flag running] at raised
    flushErrorConfigured := fun _ => rfl }

theorem wf_composed_dpb (P : Params) {s : State} (wf : s.dpb.wf) : (composed P s).dpb.wf := by
  rw [composed_dpb, composePass_eq_putAll]
  exact wf_putAll _ _ wf

/-- The pass lists no byte but those below the bytes the geometry needs (R52, R147). -/
theorem lt_bytesNeeded_or_mem_of_mem_composed_dpb {P : Params} {s : State} {c : Nat × Byte}
    (listed : c ∈ (composed P s).dpb) : c.1 < bytesNeeded s.cfgS s.cfgD ∨ c ∈ s.dpb := by
  rw [composed_dpb, composePass_eq_putAll] at listed
  refine (mem_putAll _ _ listed).imp_left ?_
  rintro ⟨w, made, here⟩
  exact here ▸ addr_lt_of_mem_passWrites made

theorem isSome_read?_composed_dpb (P : Params) {s : State} {a : Nat} (known : (s.dpb.read? a).isSome) :
    ((composed P s).dpb.read? a).isSome := by
  rw [composed_dpb, composePass_eq_putAll]
  exact isSome_read?_putAll _ _ _ _ (.inl known)

/-- The pass changes DPB alone, inside the buffer and inside the image (R52, R164, R167). -/
theorem BlockInv.composed {s : State} (inv : BlockInv s) (configured : s.cfgValid = true) (P : Params) :
    BlockInv (composed P s) := by
  have wf := wf_composed_dpb P inv.dpbWf
  have bound : ∀ c ∈ (Machine.composed P s).dpb, c.1 < s.cfgBufSize.toNat := fun c listed =>
    (lt_bytesNeeded_or_mem_of_mem_composed_dpb listed).elim
      (fun needed => needed.trans_le (inv.bytesNeeded_le configured)) (inv.dpbBound c)
  have filled : ∀ a < s.cfgBufSize.toNat, ((Machine.composed P s).dpb.read? a).isSome := fun a inside =>
    isSome_read?_composed_dpb P (inv.configuredFilled configured a inside)
  have kept : ∀ a < s.cfgBufSize.toNat, ¬ ImageByte s.cfgS s.cfgD a →
      (Machine.composed P s).dpb.read? a = some s.cfgFill := fun a inside outside => by
    rw [read?_composed_outside P outside, inv.fillKept configured a inside outside]
  obtain ⟨d, frame⟩ := composed_frame P s
  rw [frame] at wf bound filled kept ⊢
  exact { inv with
    dpbWf := wf
    dpbBound := bound
    configuredFilled := fun _ => filled
    fillKept := fun _ => kept }

/-! ### OUT -/

/-- A flush that succeeds writes OUT alone, inside the buffer, with the writes that race it (R53, R180, R247). -/
theorem BlockInv.flushDone {s : State} (inv : BlockInv s) (configured : s.cfgValid = true) : BlockInv (flushDone s) :=
  { inv with
    outWf := wf_landRivals _ _ _ _ (Memory.wf_writeRange inv.outWf _ _ _)
    outBound := fun c listed => by
      have capacity := inv.bufSize_le_capacity configured
      rcases mem_landRivals listed with raced | listed
      · exact raced.trans_le capacity
      · rcases Memory.mem_writeRange listed with ⟨_, copied⟩ | before
        · omega
        · exact inv.outBound c before }

/-- A flush that fails writes OUT inside the buffer and halts a configured block with LAST_OUTCOME at NONE
(R181, R216). -/
theorem BlockInv.flushFailed {s : State} (inv : BlockInv s) (configured : s.cfgValid = true) :
    BlockInv (flushFailed s) :=
  { inv with
    outWf := Memory.wf_writeRange inv.outWf _ _ _
    outBound := fun c listed => by
      have capacity := inv.bufSize_le_capacity configured
      rcases Memory.mem_writeRange listed with ⟨_, copied⟩ | before
      · omega
      · exact inv.outBound c before
    unconfigured := fun unset => by simp [configured] at unset
    haltedCause := by simp
    flushErrorConfigured := fun _ => configured
    flushErrorOutcome := fun _ => rfl }

/-! ### Every command and every step keep the invariant -/

/-- The effect of an accepted command keeps the invariant. -/
theorem Effect.keeps_inv {i : Instr} {s u : State} (h : Effect i s u) (inv : BlockInv s)
    (accepted : accepts i (blockState s) = true) : BlockInv u := by
  cases h with
  | nop | readStatus => exact inv
  | clearErrors => exact inv.clearRecoverable
  | reset => exact inv.resetSequence
  | loaded S D size fill _ fits =>
    obtain ⟨running, unconfigured⟩ := accepts_config_iff.1 accepted
    exact inv.loadConfig running unconfigured fits fill
  | mismatch =>
    obtain ⟨_, unconfigured⟩ := accepts_config_iff.1 accepted
    exact inv.raise_configMismatch unconfigured
  | stored row payload _ legal =>
    obtain ⟨_, configured⟩ := accepts_writeScanline_iff.1 accepted
    exact inv.storeRow configured legal _
  | malformed =>
    obtain ⟨_, configured⟩ := accepts_writeScanline_iff.1 accepted
    exact inv.raise_malformedScanline configured
  | incomplete =>
    obtain ⟨running, configured⟩ := accepts_frameComplete_iff.1 accepted
    obtain ⟨_, noFailure⟩ := inv.no_fatal_flag running
    exact (inv.raise_incompleteFrame configured noFailure).clearRows
  | dropped k n ctr =>
    obtain ⟨running, configured⟩ := accepts_frameComplete_iff.1 accepted
    obtain ⟨_, noFailure⟩ := inv.no_fatal_flag running
    exact ((inv.setSkip configured ctr).setOutcome configured noFailure .dropped).clearRows
  | composited k n ctr =>
    obtain ⟨running, configured⟩ := accepts_frameComplete_iff.1 accepted
    obtain ⟨_, noFailure⟩ := inv.no_fatal_flag running
    have pass := (inv.setSkip configured ctr).composed configured Config.params
    have flushed := pass.flushDone (by simpa using configured)
    exact (flushed.setOutcome (by simpa using configured) (by simpa using noFailure) .composited).clearRows
  | flushFailure k n ctr =>
    obtain ⟨_, configured⟩ := accepts_frameComplete_iff.1 accepted
    have pass := (inv.setSkip configured ctr).composed configured Config.params
    exact (pass.flushFailed (by simpa using configured)).clearRows

/-- A command that ends in a next state keeps the invariant. -/
theorem exec_keeps_inv {i : Instr} {s t : State} (inv : BlockInv s) (run : exec i s = .next t) : BlockInv t := by
  rcases exec_next_cases run with ⟨_, rfl⟩ | ⟨accepted, u, effect, rfl⟩
  · exact inv.raise_sequenceError.respond
  · exact (effect.keeps_inv inv accepted).respond

/-- Settles O41: a step waits, records an illegal command, or executes a command. -/
theorem stepKeepsTheInvariant : Obligations.StepKeepsTheInvariant := by
  intro s t inv run
  rcases step_next_cases run with ⟨_, rfl⟩ | ⟨why, rest, _, rfl⟩ | ⟨i, rest, _, run⟩
  · exact inv
  · exact (inv.consume rest).raise_illegalCommand.respond
  · exact exec_keeps_inv (inv.consume rest) run

/-! ### No command stops -/

theorem exists_next_config (S D size : Word) (fill : Byte) (s : State) :
    ∃ t, exec (.config S D size fill) s = .next t := by
  rw [exec, execConfig, configure]
  split_ifs <;> exact ⟨_, rfl⟩

theorem exists_next_writeScanline (row : BitVec 8) (payload : List Word) (s : State) :
    ∃ t, exec (.writeScanline row payload) s = .next t := by
  rw [exec, execWriteScanline]
  split_ifs <;> exact ⟨_, rfl⟩

/-- FRAME_COMPLETE is refused, or finds the frame incomplete, drops it, or composites inside the buffer (R52, R120). -/
theorem exists_next_frameComplete {s : State} (inv : BlockInv s) (k : Bool) (n : BitVec 8) :
    ∃ t, exec (.frameComplete k n) s = .next t := by
  cases accepted : accepts (.frameComplete k n) (blockState s) with
  | false => exact ⟨_, exec_refused accepted⟩
  | true =>
    obtain ⟨running, configured⟩ := accepts_frameComplete_iff.1 accepted
    rcases (rowsValid_le s).lt_or_eq with few | all
    · exact ⟨_, exec_frameComplete_incomplete running configured few⟩
    · by_cases now : k = false ∨ s.skipCtr = 0
      · exact ⟨_, exec_frameComplete_composite running configured all now (inv.bytesNeeded_le configured)⟩
      · obtain ⟨directed, waiting⟩ := not_or.1 now
        obtain rfl : k = true := by simpa using directed
        exact ⟨_, exec_frameComplete_drop running configured all waiting⟩

/-- From the invariant every command ends in a next state. -/
theorem exists_exec_next {s : State} (inv : BlockInv s) (i : Instr) : ∃ t, exec i s = .next t := by
  cases i with
  | nop => exact ⟨_, exec_nop s⟩
  | config S D size fill => exact exists_next_config S D size fill s
  | writeScanline row payload => exact exists_next_writeScanline row payload s
  | frameComplete k n => exact exists_next_frameComplete inv k n
  | readStatus => exact ⟨_, exec_readStatus s⟩
  | clearErrors => exact ⟨_, exec_clearErrors s⟩
  | reset => exact ⟨_, exec_reset s⟩

/-- Settles O42: a step stops only where its command does, and FRAME_COMPLETE's geometry fits. -/
theorem invariantRulesOutEveryStop : Obligations.InvariantRulesOutEveryStop := by
  intro s inv
  cases head : decode s.inbox with
  | command i rest => rw [step_of_decode head]; exact exists_exec_next (inv.consume rest) i
  | illegal why rest => exact ⟨illegalCommand (consume rest s), by simp [step, head]⟩
  | unfinished => exact ⟨s, by simp [step, head]⟩

end Sys2Proof.Machine
end

section
/-! PROOFS. What a decoded stream and an illegal word look like, the response to each command, and packed samples: the
statements of 30_encoding.md. -/

namespace Sys2Proof

/-! ### Decode and encode -/

/-- Settles O1: the words of the tables, run through the decoder. -/
theorem decodesTheSpecsWords : Obligations.DecodesTheSpecsWords := by
  unfold Obligations.DecodesTheSpecsWords
  decide

/-- Settles O2: the decoder's path of each command, on the words the encoder gives it. -/
theorem decodeOfEncodeIsTheCommand : Obligations.DecodeOfEncodeIsTheCommand :=
  fun _ rest wf => decode_encode_append wf rest

/-- A command is decoded on one path only, that of `decode_cons_append`. -/
theorem decode_eq_command {ws rest : List Word} {i : Instr} (h : decode ws = .command i rest) :
    ∃ op w payload, ws = w :: (payload ++ rest) ∧ payload.length = op.payloadWords ∧ w &&& op.mask = op.pattern
      ∧ operands op w payload = some i := by
  cases ws with
  | nil => cases h
  | cons w words =>
    rw [decode] at h
    split at h
    next => cases h
    next op _ =>
      split at h
      next => cases h
      next long =>
        split at h
        next => cases h
        next unreserved =>
          split at h
          next fields =>
            cases h
            exact ⟨op, w, words.take op.payloadWords, by rw [List.take_append_drop],
              List.length_take_of_le (Nat.le_of_not_lt long), not_not.1 unreserved, fields⟩
          next => cases h

/-- ROW and N, put back into a word, are its low byte. -/
theorem setWidth_low_byte (w : Word) : (w.extractLsb' 0 8).setWidth 32 = w &&& 0xFF := by
  have low : (w &&& 0xFF).toNat = w.toNat % 2 ^ 8 := Nat.and_two_pow_sub_one_eq_mod w.toNat 8
  apply BitVec.eq_of_toNat_eq
  rw [low, BitVec.toNat_setWidth, BitVec.extractLsb'_toNat, Nat.shiftRight_zero]
  omega

/-- K, put back at its place in a word, is that word's bit 8. -/
theorem shiftLeft_cmdK (w : Word) : (BitVec.ofBool (cmdK w)).setWidth 32 <<< 8 = w &&& 0x100 := by
  have bit : w &&& 0x100 = if w.getLsbD 8 then BitVec.twoPow 32 8 else 0 := BitVec.and_twoPow w 8
  rw [bit, cmdK]
  cases w.getLsbD 8 <;> decide

/-- A word without reserved bits is its opcode pattern and its operand bits. -/
theorem eq_pattern_or_operand_bits {w mask pattern : Word} (h : w &&& mask = pattern) :
    w = pattern ||| (w &&& ~~~mask) := by
  rw [← h, ← BitVec.and_or_distrib_left, BitVec.or_not_self, BitVec.and_allOnes]

/-- A payload[3] without reserved bits is its FILL byte (R75). -/
theorem setWidth_fillByte {w : Word} (clear : fillReservedClear w = true) : (fillByte w).setWidth 32 = w := by
  have high : (w.extractLsb' 8 24).toNat = 0 := by rw [eq_of_beq clear]; rfl
  apply BitVec.eq_of_toNat_eq
  simp only [fillByte, BitVec.toNat_setWidth, BitVec.extractLsb'_toNat, Nat.shiftRight_eq_div_pow] at high ⊢
  omega

/-- The command a word and its payload spell is well formed and has them as its encoding. -/
theorem encode_operands {op : Opcode} {w : Word} {payload : List Word} {i : Instr}
    (whole : payload.length = op.payloadWords) (unreserved : w &&& op.mask = op.pattern)
    (fields : operands op w payload = some i) : i.wellFormed = true ∧ encode i = w :: payload := by
  have word := eq_pattern_or_operand_bits unreserved
  cases op with
  | config =>
    obtain ⟨S, D, size, fill, rfl⟩ := List.length_eq_four.1 whole
    simp only [operands, Option.ite_none_right_eq_some, Option.some.injEq] at fields
    obtain ⟨clear, rfl⟩ := fields
    rw [encode, setWidth_fillByte clear]
    exact ⟨rfl, by simpa [Opcode.mask, Opcode.pattern] using word.symm⟩
  | writeScanline =>
    cases fields
    have row : 0x20000000 ||| (cmdRow w).setWidth 32 = w := (setWidth_low_byte w).symm ▸ word.symm
    exact ⟨beq_iff_eq.2 whole, by rw [encode, row]⟩
  | frameComplete =>
    cases fields
    have operandBits : (0x30000000 : Word) ||| (w &&& 0x100) ||| (w &&& 0xFF) = w := by
      rw [BitVec.or_assoc, ← BitVec.and_or_distrib_left]
      exact word.symm
    refine ⟨rfl, ?_⟩
    rw [encode, shiftLeft_cmdK, cmdN, setWidth_low_byte, operandBits, List.length_eq_zero_iff.1 whole]
  | nop | readStatus | clearErrors | reset =>
    cases fields
    rw [List.length_eq_zero_iff.1 whole]
    exact ⟨rfl, by simpa [encode, Opcode.mask, Opcode.pattern] using word.symm⟩

/-- Settles O3: the decoder's one path to a command, and on it the encoding of what the fields spell. -/
theorem encodeOfDecodeIsTheStream : Obligations.EncodeOfDecodeIsTheStream := by
  intro ws rest i h
  obtain ⟨op, w, payload, rfl, whole, unreserved, fields⟩ := decode_eq_command h
  obtain ⟨wf, words⟩ := encode_operands whole unreserved fields
  exact ⟨wf, by rw [words, List.cons_append]⟩

namespace Machine

/-! ### Illegal words -/

/-- A word of a reserved opcode is illegal, and takes no payload with it (R78). -/
theorem decode_reservedOpcode {w : Word} (reserved : Opcode.ofBits (cmdOpcode w) = none) (rest : List Word) :
    decode (w :: rest) = .illegal .reservedOpcode rest := by
  simp [decode, reserved]

/-- A defined opcode with a reserved bit set is illegal, and takes its payload with it (R79). -/
theorem decode_reservedBits {op : Opcode} {w : Word} {payload : List Word}
    (opcode : Opcode.ofBits (cmdOpcode w) = some op) (whole : payload.length = op.payloadWords)
    (reserved : w &&& op.mask ≠ op.pattern ∨ operands op w payload = none) (rest : List Word) :
    ∃ why, decode (w :: (payload ++ rest)) = .illegal why rest := by
  by_cases bits : w &&& op.mask = op.pattern
  · have fields := reserved.resolve_left (not_not.2 bits)
    exact ⟨.reservedPayload, by simp [decode, opcode, ← whole, bits, fields]⟩
  · exact ⟨.reservedBits, by simp [decode, opcode, ← whole, bits]⟩

/-- The step of an illegal command: its words are gone, ERR_ILLEGAL is set, STATUS is returned, nothing else changes
(R78, R79, R213). -/
theorem step_of_illegal {s : State} {why : IllegalWord} {rest : List Word} (h : decode s.inbox = .illegal why rest) :
    step s = .next { s with
      inbox := rest
      errIllegal := true
      outbox := s.outbox ++ [status { s with errIllegal := true }] } := by
  rw [step, h]
  rfl

/-- The reserved opcodes are 0x6 to 0xE (R78). -/
theorem ofBits_eq_none_iff (b : BitVec 4) : Opcode.ofBits b = none ↔ 6 ≤ b.toNat ∧ b.toNat ≤ 14 := by
  revert b; decide

/-- Settles O8: the decoder names the word illegal and leaves the rest of the channel. -/
theorem reservedOpcodeIsIllegal : Obligations.ReservedOpcodeIsIllegal := by
  intro s w rest channel low high
  have head := decode_reservedOpcode ((ofBits_eq_none_iff (cmdOpcode w)).2 ⟨low, high⟩) rest
  exact step_of_illegal (channel ▸ head)

/-- Bits that the mask covers and the pattern has 0 are 0 in every word of the pattern. -/
theorem extractLsb'_eq_zero_of_pattern {w mask pattern : Word} {start len : Nat} (unreserved : w &&& mask = pattern)
    (covered : mask.extractLsb' start len = BitVec.allOnes len) (zero : pattern.extractLsb' start len = 0) :
    w.extractLsb' start len = 0 := by
  rw [← zero, ← unreserved, BitVec.extractLsb'_and, covered, BitVec.and_allOnes]

/-- A command word without operands has every bit below its opcode reserved (R72, R77). -/
theorem no_operand_bits {op : Opcode} (row : op ≠ .writeScanline) (frame : op ≠ .frameComplete) :
    op.mask.extractLsb' 0 28 = BitVec.allOnes 28 ∧ op.pattern.extractLsb' 0 28 = 0 := by
  cases op with
  | writeScanline => exact absurd rfl row
  | frameComplete => exact absurd rfl frame
  | nop | config | readStatus | clearErrors | reset => decide

/-- A CONFIG whose payload[3] has a reserved bit set spells no command (R75, R79). -/
theorem operands_config_eq_none {w : Word} {payload : List Word} (reserved : (payload.getD 3 0).extractLsb' 8 24 ≠ 0) :
    operands .config w payload = none := by
  unfold operands
  split <;> simp_all [fillReservedClear]

/-- Settles O9: each kind of reserved bit breaks the word's pattern or its payload's fields. -/
theorem reservedBitIsIllegal : Obligations.ReservedBitIsIllegal := by
  intro s w op payload rest channel opcode whole reserved
  have broken : w &&& op.mask ≠ op.pattern ∨ operands op w payload = none := by
    rcases reserved with ⟨rfl, set⟩ | ⟨rfl, set⟩ | ⟨row, frame, set⟩ | ⟨rfl, set⟩
    · exact .inl fun h => set (extractLsb'_eq_zero_of_pattern h (by decide) (by decide))
    · exact .inl fun h => set (extractLsb'_eq_zero_of_pattern h (by decide) (by decide))
    · obtain ⟨covered, zero⟩ := no_operand_bits row frame
      exact .inl fun h => set (extractLsb'_eq_zero_of_pattern h covered zero)
    · exact .inr (operands_config_eq_none set)
  obtain ⟨why, head⟩ := decode_reservedBits opcode whole broken rest
  exact step_of_illegal (by rw [channel, List.cons_append, head])

/-! ### The response -/

/-- STATUS is 0 after the reset sequence (R35, R241). -/
theorem status_resetSequence (s : State) : status (resetSequence s) = 0 := by
  have same : status (resetSequence s) = status State.reset := by apply status_congr <;> simp [State.reset]
  obtain ⟨-, -, -, -, -, -, -, -, -, -, zero⟩ := resetValues
  rw [same, zero]

/-- A command that ends in a next state appends STATUS after its effects, and nothing else (R82). -/
theorem exec_outbox {i : Instr} {s t : State} (run : exec i s = .next t) : t.outbox = s.outbox ++ [status t] := by
  rcases exec_next_cases run with ⟨_, rfl⟩ | ⟨_, u, effect, rfl⟩
  · simp [refuse]
  · simp [effect.outbox_eq]

/-- Settles O10: a whole command is executed or rejected, and either way its last act is `respond`. -/
theorem oneResponsePerCommand : Obligations.OneResponsePerCommand := by
  intro s t whole run
  refine ⟨?_, fun rest head => ?_⟩
  · rcases step_next_cases run with ⟨waiting, _⟩ | ⟨why, rest, _, rfl⟩ | ⟨i, rest, _, run⟩
    · exact absurd waiting whole
    · simp [illegalCommand]
    · rw [exec_outbox run, consume_outbox]
  · rw [step_of_decode head, exec_reset] at run
    cases run
    simp [status_resetSequence]

/-! ### Packed samples -/

/-- The sample packed last stands in the lowest two bits. -/
theorem extractLsb'_pushSample_zero (v : Word) (g : Gray) : ((v <<< 2) ||| g.setWidth 32).extractLsb' 0 2 = g := by
  apply BitVec.eq_of_getLsbD_eq
  intro j hj
  have : j < 32 := by omega
  simp [*]

/-- Packing a sample moves every sample before it up by one. -/
theorem extractLsb'_pushSample_succ (v : Word) (g : Gray) {i : Nat} (h : i + 1 < 16) :
    ((v <<< 2) ||| g.setWidth 32).extractLsb' (2 * (i + 1)) 2 = v.extractLsb' (2 * i) 2 := by
  apply BitVec.eq_of_getLsbD_eq
  intro j hj
  have above : g.getLsbD (2 * (i + 1) + j) = false := BitVec.getLsbD_of_ge g _ (by omega)
  have place : 2 * (i + 1) + j - 2 = 2 * i + j := by omega
  have inside : 2 * (i + 1) + j < 32 ∧ ¬ 2 * (i + 1) + j < 2 := by omega
  simp only [BitVec.getLsbD_extractLsb', BitVec.getLsbD_or, BitVec.getLsbD_shiftLeft, BitVec.getLsbD_setWidth, hj,
    above, place, inside, decide_true, decide_false, Bool.not_false, Bool.true_and, Bool.and_false, Bool.or_false]

/-- Sample `i` of a packed word is sample `i` of the list, 0 past its end (R76). -/
theorem extractLsb'_packWord (gs : List Gray) {i : Nat} (h : i < 16) :
    (packWord gs).extractLsb' (2 * i) 2 = gs.getD i 0 := by
  induction gs generalizing i with
  | nil => simp [packWord]
  | cons g gs ih =>
    cases i with
    | zero => exact extractLsb'_pushSample_zero (packWord gs) g
    | succ i =>
      rw [packWord, extractLsb'_pushSample_succ _ _ h, ih (by omega), List.getD_cons_succ]

@[simp] theorem length_packWords (n : Nat) (gs : List Gray) : (packWords n gs).length = n := by
  induction n generalizing gs with
  | zero => rfl
  | succ n ih => rw [packWords, List.length_cons, ih]

/-- Pixel `x` of the packed words is sample `x` of the list (R76). -/
theorem pixel_packWords {n : Nat} (gs : List Gray) {x : Nat} (h : x < 16 * n) :
    pixel (packWords n gs) x = gs.getD x 0 := by
  induction n generalizing gs x with
  | zero => omega
  | succ n ih =>
    rcases Nat.lt_or_ge x 16 with first | later
    · have word : pixel (packWords (n + 1) gs) x = (packWord (gs.take 16)).extractLsb' (2 * x) 2 := by
        rw [pixel, packWords, Nat.div_eq_of_lt first, Nat.mod_eq_of_lt first, List.getD_cons_zero]
      rw [word, extractLsb'_packWord _ first]
      simp [first]
    · obtain ⟨x, rfl⟩ := Nat.exists_eq_add_of_le' later
      have tail : pixel (packWords (n + 1) gs) (x + 16) = pixel (packWords n (gs.drop 16)) x := by
        rw [pixel, packWords, Nat.add_div_right x (by decide), Nat.add_mod_right, List.getD_cons_succ, pixel]
      rw [tail, ih _ (by omega)]
      simp [Nat.add_comm]

/-- Settles O4: a row of samples packed word by word, and read back within each word. -/
theorem packedSamplesAreThePixels : Obligations.PackedSamplesAreThePixels :=
  fun gs _ => ⟨length_packWords 10 gs, fun _ h => pixel_packWords (n := 10) gs h⟩

end Machine

end Sys2Proof
end

section
/-! PROOFS. What the assembler makes of each line: its operand limits and its words (R83, R84). -/

namespace Sys2Proof.Machine

/-! ### The fields of a word as numbers -/

/-- A WRITE_SCANLINE word as a number (R73). -/
theorem writeScanline_word_eq {row : Nat} (h : row ≤ 255) :
    (0x20000000 : Word) ||| (BitVec.ofNat 8 row).setWidth 32 = BitVec.ofNat 32 (0x20000000 + row) := by
  have word : ∀ r : BitVec 8, (0x20000000 : Word) ||| r.setWidth 32 = BitVec.ofNat 32 (0x20000000 + r.toNat) := by
    decide
  rw [word, BitVec.toNat_ofNat, Nat.mod_eq_of_lt (by omega)]

/-- A FRAME_COMPLETE word as a number (R74). -/
theorem frameComplete_word_eq (k : Bool) {n : Nat} (h : n ≤ 255) :
    (0x30000000 : Word) ||| ((BitVec.ofBool k).setWidth 32 <<< 8) ||| (BitVec.ofNat 8 n).setWidth 32
      = BitVec.ofNat 32 (0x30000000 + 0x100 * k.toNat + n) := by
  have word : ∀ (k : Bool) (m : BitVec 8),
      (0x30000000 : Word) ||| ((BitVec.ofBool k).setWidth 32 <<< 8) ||| m.setWidth 32
        = BitVec.ofNat 32 (0x30000000 + 0x100 * k.toNat + m.toNat) := by decide
  rw [word, BitVec.toNat_ofNat, Nat.mod_eq_of_lt (by omega)]

/-- CONFIG's payload[3] as a number (R75). -/
theorem fill_word_eq {fill : Nat} (h : fill ≤ 255) :
    (BitVec.ofNat 8 fill).setWidth 32 = BitVec.ofNat 32 fill := by
  rw [BitVec.setWidth_ofNat_of_le_of_lt (by decide) (by omega)]

/-- The payload word of sixteen equal samples as a number (R84). -/
theorem grayWord_eq {g : Nat} (h : g ≤ 3) : grayWord (BitVec.ofNat 2 g) = BitVec.ofNat 32 (g * 0x55555555) := by
  have word : ∀ v : Gray, grayWord v = BitVec.ofNat 32 (v.toNat * 0x55555555) := by decide
  rw [word, BitVec.toNat_ofNat, Nat.mod_eq_of_lt (by omega)]

/-- The words of a filled scanline as numbers (R84). -/
theorem encode_fillScanline {g row : Nat} (hrow : row ≤ 255) (hg : g ≤ 3) :
    encode (fillScanline g row)
      = BitVec.ofNat 32 (0x20000000 + row) :: List.replicate 10 (BitVec.ofNat 32 (g * 0x55555555)) := by
  rw [fillScanline, encode, writeScanline_word_eq hrow, grayWord_eq hg]

/-! ### Well-formed commands -/

theorem wellFormed_fillScanline (g row : Nat) : (fillScanline g row).wellFormed = true := rfl

/-- The commands of an accepted line are well formed (R71, R83). -/
theorem wellFormed_of_assemble {l : AsmLine} {is : List Instr} (accepted : assemble l = some is) :
    ∀ i ∈ is, i.wellFormed = true := by
  cases l with
  | nop | rstat | clrerr | reset | frame => cases accepted; decide
  | wslWords row words =>
    obtain ⟨limits, ⟨⟩⟩ := Option.ite_none_right_eq_some.1 accepted
    have ten : words.length = 10 := by
      simp only [Bool.and_eq_true, beq_iff_eq] at limits
      obtain ⟨⟨_, ten⟩, _⟩ := limits
      exact ten
    simp [Instr.wellFormed, ten]
  | wslPixels row pixels =>
    obtain ⟨_, ⟨⟩⟩ := Option.ite_none_right_eq_some.1 accepted
    simp [Instr.wellFormed, packPixels]
  | frameFill g =>
    obtain ⟨_, ⟨⟩⟩ := Option.ite_none_right_eq_some.1 accepted
    simp [wellFormed_fillScanline]
  | config | fc | wslFill | frameSkip =>
    obtain ⟨_, ⟨⟩⟩ := Option.ite_none_right_eq_some.1 accepted
    exact List.forall_mem_singleton.2 rfl

/-! ### The words of each line -/

/-- The words of a line with operand limits: those of its commands within the limits, none beyond. -/
theorem assembleWords_of_limits {l : AsmLine} {p q : Prop} [Decidable p] [Decidable q] {is : List Instr} {ws : List Word}
    (line : assemble l = if p then some is else none) (limits : p ↔ q) (words : q → is.flatMap encode = ws) :
    assembleWords l = if q then some ws else none := by
  rw [assembleWords, line]
  by_cases within : q
  · rw [if_pos (limits.2 within), if_pos within, Option.map_some, words within]
  · rw [if_neg (mt limits.1 within), if_neg within, Option.map_none]

theorem assembleWords_config (s d size fill : Nat) : assembleWords (.config s d size fill)
    = if s < 2 ^ 32 ∧ d < 2 ^ 32 ∧ size < 2 ^ 32 ∧ fill ≤ 255 then
        some [0x10000000, BitVec.ofNat 32 s, BitVec.ofNat 32 d, BitVec.ofNat 32 size, BitVec.ofNat 32 fill]
      else none := by
  refine assembleWords_of_limits rfl ?_ fun ⟨_, _, _, byte⟩ => ?_
  · simp only [fitsWord, Bool.and_eq_true, decide_eq_true_eq]
    omega
  · simp [encode, fill_word_eq byte]

theorem assembleWords_wslWords (row : Nat) (ws : List Nat) : assembleWords (.wslWords row ws)
    = if row ≤ 255 ∧ ws.length = 10 ∧ ∀ w ∈ ws, w < 2 ^ 32 then
        some (BitVec.ofNat 32 (0x20000000 + row) :: ws.map (BitVec.ofNat 32))
      else none := by
  refine assembleWords_of_limits rfl ?_ fun ⟨byte, _, _⟩ => ?_
  · simp only [fitsWord, Bool.and_eq_true, decide_eq_true_eq, beq_iff_eq, List.all_eq_true, and_assoc, Nat.lt_succ_iff]
  · rw [List.flatMap_singleton, encode, writeScanline_word_eq byte]

/-- Pixels within the limits become their packed words, and no other line of pixels is accepted (R76, R83). -/
theorem assembleWords_wslPixels (row : Nat) (ps : List Nat) : assembleWords (.wslPixels row ps)
    = if row ≤ 255 ∧ ps.length = 160 ∧ ∀ p ∈ ps, p ≤ 3 then
        some (BitVec.ofNat 32 (0x20000000 + row) :: packPixels (ps.map (BitVec.ofNat 2)))
      else none := by
  refine assembleWords_of_limits rfl ?_ fun ⟨byte, _, _⟩ => ?_
  · simp only [Bool.and_eq_true, decide_eq_true_eq, beq_iff_eq, List.all_eq_true, and_assoc, Nat.lt_succ_iff]
  · rw [List.flatMap_singleton, encode, writeScanline_word_eq byte]

/-- A packed pixel is that pixel's two-bit value (R76). -/
theorem pixel_packPixels_map (ps : List Nat) {x : Nat} (h : x < 160) :
    pixel (packPixels (ps.map (BitVec.ofNat 2))) x = BitVec.ofNat 2 (ps.getD x 0) := by
  rw [packPixels, pixel_packWords _ h]
  exact List.getD_map ps 0 (BitVec.ofNat 2)

theorem assembleWords_fc (k n : Nat) : assembleWords (.fc k n)
    = if k ≤ 1 ∧ n ≤ 255 then some [BitVec.ofNat 32 (0x30000000 + 0x100 * k + n)] else none := by
  refine assembleWords_of_limits rfl ?_ fun ⟨bit, byte⟩ => ?_
  · simp only [Bool.and_eq_true, decide_eq_true_eq, Nat.lt_succ_iff]
  · have directive : (k == 1).toNat = k := by interval_cases k <;> rfl
    rw [List.flatMap_singleton, encode, frameComplete_word_eq _ byte, directive]

theorem assembleWords_wslFill (row g : Nat) : assembleWords (.wslFill row g)
    = if row ≤ 255 ∧ g ≤ 3 then
        some (BitVec.ofNat 32 (0x20000000 + row) :: List.replicate 10 (BitVec.ofNat 32 (g * 0x55555555)))
      else none := by
  refine assembleWords_of_limits rfl ?_ fun ⟨byte, gray⟩ => ?_
  · simp only [Bool.and_eq_true, decide_eq_true_eq, Nat.lt_succ_iff]
  · rw [List.flatMap_singleton, encode_fillScanline byte gray]

theorem assembleWords_frameFill (g : Nat) : assembleWords (.frameFill g)
    = if g ≤ 3 then
        some ((List.range 144).flatMap fun row =>
          BitVec.ofNat 32 (0x20000000 + row) :: List.replicate 10 (BitVec.ofNat 32 (g * 0x55555555)))
      else none := by
  refine assembleWords_of_limits rfl Nat.lt_succ_iff fun gray => ?_
  rw [List.flatMap_map]
  refine List.flatMap_congr fun row listed => encode_fillScanline ?_ gray
  have := List.mem_range.1 listed
  omega

theorem assembleWords_frameSkip (n : Nat) : assembleWords (.frameSkip n)
    = if n ≤ 255 then some [BitVec.ofNat 32 (0x30000100 + n)] else none := by
  refine assembleWords_of_limits rfl Nat.lt_succ_iff fun byte => ?_
  rw [List.flatMap_singleton, encode, frameComplete_word_eq true byte]
  rfl

/-- Settles O5: the limits and words line by line, and the texts read. -/
theorem assemblerKeepsTheOperandLimits : Obligations.AssemblerKeepsTheOperandLimits := by
  refine ⟨fun l is accepted => ⟨by rw [assembleWords, accepted, Option.map_some], wellFormed_of_assemble accepted⟩,
    rfl, assembleWords_config, fun row ps => ?_, assembleWords_wslWords, assembleWords_fc, rfl, rfl, rfl,
    assembleWords_wslFill, assembleWords_frameFill, rfl, assembleWords_frameSkip, ?_⟩
  · rw [assembleWords_wslPixels]
    split
    · exact ⟨_, rfl, length_packWords 10 _, fun _ => pixel_packPixels_map ps⟩
    · rfl
  · decide

end Sys2Proof.Machine
end

section
/-! PROOFS. What a store of one row leaves in every cell and in the set of valid rows: the statements of
40_scanline_accumulator.md. -/

namespace Sys2Proof.Machine

/-! ### The cells of PLANE -/

/-- A row's cells are the `srcW` places from its first one on, and no other row's (R22). -/
theorem planeKey_mem_row_iff {row y x : Nat} (inRow : x < srcW) :
    planeKey row 0 ≤ planeKey y x ∧ planeKey y x < planeKey row 0 + srcW ↔ y = row := by
  simp only [planeKey, srcW] at inRow ⊢
  omega

theorem planeKey_sub_first (y x : Nat) : planeKey y x - planeKey y 0 = x := by simp [planeKey]

/-- After a store a cell of the stored row holds the row's sample, any other cell what it held (R100). -/
theorem read?_storeRow {row : Nat} (px : Nat → Gray) (s : State) {y x : Nat} (inRow : x < srcW) :
    (storeRow row px s).plane.read? (planeKey y x)
      = if y = row then some (px x) else s.plane.read? (planeKey y x) := by
  rw [storeRow_plane, Memory.read?_writeRange]
  by_cases stored : y = row
  · rw [if_pos ((planeKey_mem_row_iff inRow).2 stored), if_pos stored, ← stored, planeKey_sub_first]
  · rw [if_neg (mt (planeKey_mem_row_iff inRow).1 stored), if_neg stored]

/-- The cells a store leaves do not depend on a response before it. -/
@[simp] theorem storeRow_respond_plane (row : Nat) (px : Nat → Gray) (s : State) :
    (storeRow row px (respond s)).plane = (storeRow row px s).plane := rfl

/-- Stores of two different rows commute, cell by cell (R102). -/
theorem read?_storeRow_comm {row row' : Nat} (differ : row ≠ row') (px px' : Nat → Gray) (s : State) {y x : Nat}
    (inRow : x < srcW) :
    (storeRow row' px' (storeRow row px s)).plane.read? (planeKey y x)
      = (storeRow row px (storeRow row' px' s)).plane.read? (planeKey y x) := by
  simp only [read?_storeRow _ _ inRow]
  by_cases first : y = row
  · rw [if_pos first, if_pos first, if_neg (first ▸ differ)]
  · rw [if_neg first, if_neg first]

/-- A second store of a row leaves no cell of the first (R102). -/
theorem read?_storeRow_storeRow (row : Nat) (px px' : Nat → Gray) (s : State) {y x : Nat} (inRow : x < srcW) :
    (storeRow row px' (storeRow row px s)).plane.read? (planeKey y x)
      = (storeRow row px' s).plane.read? (planeKey y x) := by
  simp only [read?_storeRow _ _ inRow]
  by_cases stored : y = row
  · rw [if_pos stored, if_pos stored]
  · rw [if_neg stored, if_neg stored, if_neg stored]

/-! ### The valid rows -/

/-- Stores mark their rows valid in either order (R102). -/
theorem rowValid_storeRow_comm (row row' : Nat) (px px' : Nat → Gray) (s : State) :
    (storeRow row' px' (storeRow row px s)).rowValid = (storeRow row px (storeRow row' px' s)).rowValid := by
  simp only [storeRow_rowValid, BitVec.or_assoc, BitVec.or_comm (BitVec.twoPow 144 row)]

/-- The rows whose ROW_VALID flag is set (R23). -/
def validRows (s : State) : Finset Nat := {y ∈ Finset.range srcH | s.rowValid.getLsbD y = true}

theorem mem_validRows {s : State} {y : Nat} : y ∈ validRows s ↔ y < srcH ∧ s.rowValid.getLsbD y = true := by
  rw [validRows, Finset.mem_filter, Finset.mem_range]

/-- ROWS_VALID counts the valid rows (R28). -/
theorem rowsValid_eq_card (s : State) : rowsValid s = (validRows s).card := by
  rw [rowsValid, validRows, Finset.card_def, Finset.filter_val, ← Multiset.countP_eq_card_filter]
  simp only [Finset.range, Multiset.range, Multiset.coe_countP, Bool.decide_eq_true]

/-- A store adds its row to the valid ones (R100). -/
theorem validRows_storeRow {row : Nat} (legal : row < srcH) (px : Nat → Gray) (s : State) :
    validRows (storeRow row px s) = insert row (validRows s) := by
  ext y
  rw [Finset.mem_insert, mem_validRows, mem_validRows]
  constructor
  · rintro ⟨inFrame, valid⟩
    rw [getLsbD_storeRow_rowValid px s inFrame, Bool.or_eq_true, decide_eq_true_eq] at valid
    exact valid.symm.imp_right fun before => ⟨inFrame, before⟩
  · rintro (rfl | ⟨inFrame, before⟩)
    · exact ⟨legal, by rw [getLsbD_storeRow_rowValid px s legal, decide_eq_true rfl, Bool.or_true]⟩
    · exact ⟨inFrame, by rw [getLsbD_storeRow_rowValid px s inFrame, before, Bool.true_or]⟩

/-- ROWS_VALID counts a stored row once (R100). -/
theorem rowsValid_storeRow {row : Nat} (legal : row < srcH) (px : Nat → Gray) (s : State) :
    rowsValid (storeRow row px s) = rowsValid s + if s.rowValid.getLsbD row then 0 else 1 := by
  rw [rowsValid_eq_card, rowsValid_eq_card, validRows_storeRow legal]
  cases valid : s.rowValid.getLsbD row with
  | true => rw [Finset.insert_eq_of_mem (mem_validRows.2 ⟨legal, valid⟩), if_pos rfl, Nat.add_zero]
  | false =>
    have new : row ∉ validRows s := fun listed => by simp [(mem_validRows.1 listed).2] at valid
    rw [Finset.card_insert_of_notMem new, if_neg Bool.false_ne_true]

/-! ### WRITE_SCANLINE -/

/-- A legal row in a configured, running block ends in the stored row and a response, and nowhere else (R100). -/
theorem eq_of_exec_writeScanline {row : BitVec 8} {payload : List Word} {s t : State} (running : s.halted = false)
    (configured : s.cfgValid = true) (legal : row.toNat < srcH) (run : exec (.writeScanline row payload) s = .next t) :
    t = respond (storeRow row.toNat (pixel payload) s) := by
  rw [exec_writeScanline_stored running configured legal] at run
  injection run with ends
  exact ends.symm

/-- A row past the frame in a configured, running block is recorded and responded to (R101). -/
theorem exec_writeScanline_malformed {row : BitVec 8} {payload : List Word} {s : State} (running : s.halted = false)
    (configured : s.cfgValid = true) (outside : srcH ≤ row.toNat) :
    exec (.writeScanline row payload) s = .next (respond (raise .malformedScanline s)) := by
  rw [exec, execWriteScanline, if_neg (by simp [running, configured]), if_pos outside]

/-- Settles O27: ROWS_VALID counts a set to which the store adds its row. -/
theorem writeScanlineCountsANewRowOnce : Obligations.WriteScanlineCountsANewRowOnce := by
  intro row payload s t running configured legal run
  rw [eq_of_exec_writeScanline running configured legal run, rowsValid_respond]
  exact rowsValid_storeRow legal _ s

/-- Settles O29: stores of different rows commute, and a second store of a row covers the first. -/
theorem rowsMayComeInAnyOrder : Obligations.RowsMayComeInAnyOrder := by
  intro r q p p' s a b c d running configured legalR legalQ runA runB runC runD
  obtain rfl := eq_of_exec_writeScanline running configured legalR runA
  obtain rfl := eq_of_exec_writeScanline (by simpa using running) (by simpa using configured) legalQ runB
  obtain rfl := eq_of_exec_writeScanline running configured legalQ runC
  obtain rfl := eq_of_exec_writeScanline (by simpa using running) (by simpa using configured) legalR runD
  refine ⟨rowValid_storeRow_comm r.toNat q.toNat (pixel p) (pixel p') s, ?_⟩
  simp only [respond_plane, storeRow_respond_plane]
  split
  next same =>
    subst same
    exact fun y x inRow => read?_storeRow_storeRow r.toNat (pixel p) (pixel p') s inRow
  next differ =>
    exact fun y x inRow => read?_storeRow_comm (mt BitVec.eq_of_toNat_eq differ) (pixel p) (pixel p') s inRow

/-- Settles O26: the stored row's cells and flag, and no other part of the state. -/
theorem writeScanlineStoresTheRow : Obligations.WriteScanlineStoresTheRow := by
  intro row payload s running configured legal _
  refine ⟨_, exec_writeScanline_stored running configured legal, rfl, fun x inRow => ?_, fun y x other inRow => ?_,
    fun y inFrame => ?_⟩
  · rw [planeCell, respond_plane, read?_storeRow _ s inRow, if_pos rfl, Option.getD_some, pixel]
  · rw [respond_plane, read?_storeRow _ s inRow, if_neg other]
  · rw [respond_rowValid, getLsbD_storeRow_rowValid _ s inFrame]

/-- Settles O28: a row past the frame only raises MalformedScanline. -/
theorem malformedRowIsRejected : Obligations.MalformedRowIsRejected := by
  intro row payload s running configured outside
  rw [exec_writeScanline_malformed running configured outside]
  rfl

end Sys2Proof.Machine
end

section
/-! PROOFS. The counter of the Frame Gate and the paths of FRAME_COMPLETE: the statements of 41_frame_gate.md. -/

namespace Sys2Proof.Machine

/-! ### The gate's counter -/

/-- The gate lets every K = 0 frame through and clears the counter (R121). -/
theorem gateStep_false (n ctr : BitVec 8) : gateStep false n ctr = (.compositeNow, 0) := by
  rw [gateStep, if_pos rfl]

/-- With K = 1 a counter at 0 lets the frame through and is reloaded (R121). -/
theorem gateStep_true_zero (n : BitVec 8) : gateStep true n 0 = (.compositeNow, if n = 0 then 0 else n - 1) := by
  simp [gateStep_now]

/-- A counter that is not 0 counts down without wrapping (R121). -/
theorem toNat_sub_one_add_one {v : BitVec 8} (waiting : v ≠ 0) : (v - 1).toNat + 1 = v.toNat := by
  bv_omega

/-- Settles O30: the three branches of the gate, and the decrement of a counter that is not 0. -/
theorem gateStepVerdicts : Obligations.GateStepVerdicts :=
  fun n ctr => ⟨gateStep_false n ctr, fun expired => expired ▸ gateStep_true_zero n,
    fun waiting => ⟨gateStep_drop waiting, toNat_sub_one_add_one waiting⟩⟩

/-! ### One of every N frames -/

/-- How many complete frames the gate takes for one that composites: N, and 1 for N = 0 (R123). -/
abbrev gatePeriod (n : BitVec 8) : Nat := max n.toNat 1

theorem gatePeriod_pos (n : BitVec 8) : 0 < gatePeriod n := lt_max_of_lt_right Nat.one_pos

/-- The reload value is the last place of a period. -/
theorem toNat_reload_add_one (n : BitVec 8) : (if n = 0 then 0 else n - 1).toNat + 1 = gatePeriod n := by
  split
  next zero => rw [zero]; rfl
  next nonzero => rw [toNat_sub_one_add_one nonzero, gatePeriod, max_eq_left (by bv_omega)]

/-- From a counter inside the period, one frame composites where the counter is 0, and leaves a counter inside the
period that is 1 less modulo the period. -/
theorem gateStep_true_of_lt {n ctr : BitVec 8} (inside : ctr.toNat < gatePeriod n) :
    (gateStep true n ctr).1 = (if 0 ≡ ctr.toNat [MOD gatePeriod n] then .compositeNow else .drop)
      ∧ (gateStep true n ctr).2.toNat < gatePeriod n
      ∧ (gateStep true n ctr).2.toNat + 1 ≡ ctr.toNat [MOD gatePeriod n] := by
  by_cases expired : ctr = 0
  · subst expired
    rw [gateStep_true_zero]
    have reload := toNat_reload_add_one n
    exact ⟨(if_pos rfl).symm, Nat.lt_of_succ_le reload.le, by rw [reload]; exact Nat.mod_self _⟩
  · rw [gateStep_drop expired]
    have counted := toNat_sub_one_add_one expired
    have off : ¬ 0 ≡ ctr.toNat [MOD gatePeriod n] := fun same => by
      have : 0 = ctr.toNat := same.eq_of_lt_of_lt (gatePeriod_pos n) inside
      omega
    exact ⟨(if_neg off).symm, (Nat.lt_of_succ_le counted.le).trans inside, by rw [counted]⟩

/-- The verdict on frame `j` from a counter inside the period: CompositeNow where `j` is the counter modulo the period
(R123). -/
def verdictAt (n ctr : BitVec 8) (j : Nat) : Verdict :=
  if j ≡ ctr.toNat [MOD gatePeriod n] then .compositeNow else .drop

theorem verdictAt_beq_compositeNow (n ctr : BitVec 8) (j : Nat) :
    (verdictAt n ctr j == .compositeNow) = decide (j ≡ ctr.toNat [MOD gatePeriod n]) := by
  by_cases here : j ≡ ctr.toNat [MOD gatePeriod n] <;> simp [verdictAt, here]

/-- A period holds one number of each class modulo the period. -/
theorem count_modEq_gatePeriod (n : BitVec 8) (c : Nat) : (gatePeriod n).count (· ≡ c [MOD gatePeriod n]) = 1 := by
  rw [Nat.count_modEq_card _ (gatePeriod_pos n), Nat.div_self (gatePeriod_pos n), Nat.mod_self,
    if_neg (Nat.not_lt_zero _)]

/-- The verdict on the frame after `j` is the one on `j` from the counter one frame later. -/
theorem verdictAt_succ {n ctr : BitVec 8} (inside : ctr.toNat < gatePeriod n) (j : Nat) :
    verdictAt n ctr (j + 1) = verdictAt n (gateStep true n ctr).2 j := by
  obtain ⟨_, _, down⟩ := gateStep_true_of_lt inside
  have shift : j + 1 ≡ ctr.toNat [MOD gatePeriod n] ↔ j ≡ (gateStep true n ctr).2.toNat [MOD gatePeriod n] :=
    ⟨fun here => (here.trans down.symm).add_right_cancel' 1, fun here => (here.add_right 1).trans down⟩
  simp only [verdictAt, shift]

/-- The verdicts from a counter inside the period are periodic (R123). -/
theorem gateVerdicts_eq_map {n ctr : BitVec 8} (inside : ctr.toNat < gatePeriod n) (m : Nat) :
    gateVerdicts n m ctr = (List.range m).map (verdictAt n ctr) := by
  induction m generalizing ctr with
  | zero => rfl
  | succ m ih =>
    obtain ⟨first, inside', _⟩ := gateStep_true_of_lt inside
    rw [gateVerdicts, ih inside', List.range_succ_eq_map, List.map_cons, List.map_map, first]
    exact congrArg _ (List.map_congr_left fun j _ => (verdictAt_succ inside j).symm)

/-- Settles O31: the verdicts are periodic, and a period holds one number congruent to the counter. -/
theorem oneOfEveryNFramesComposites : Obligations.OneOfEveryNFramesComposites := by
  refine ⟨fun n m j inRun => ?_, fun n ctr inside => ?_⟩
  · rw [gateVerdicts_eq_map (ctr := 0) (gatePeriod_pos n), List.getElem?_map, List.getElem?_range inRun]
    rfl
  · rw [gateVerdicts_eq_map inside, List.countP_map]
    calc (List.range (gatePeriod n)).countP (fun j => verdictAt n ctr j == .compositeNow)
      _ = (gatePeriod n).count (· ≡ ctr.toNat [MOD gatePeriod n]) :=
        congrArg (List.countP · _) (funext (verdictAt_beq_compositeNow n ctr))
      _ = 1 := count_modEq_gatePeriod n ctr.toNat

/-! ### Frames that do not composite -/

/-- Settles O32: the incomplete path of FRAME_COMPLETE. -/
theorem incompleteFrameIsDropped : Obligations.IncompleteFrameIsDropped :=
  fun _ _ _ running configured few => ⟨_, exec_frameComplete_incomplete running configured few, rfl⟩

/-- Settles O33: the Drop path of FRAME_COMPLETE. -/
theorem gateDropsTheFrame : Obligations.GateDropsTheFrame :=
  fun _ _ running configured all waiting => ⟨_, exec_frameComplete_drop running configured all waiting, rfl⟩

/-! ### Frames that composite -/

/-- A frame that composites with a flush that fails (R120, R181). -/
theorem exec_frameComplete_flushFailed {k : Bool} {n : BitVec 8} {s : State} (running : s.halted = false)
    (configured : s.cfgValid = true) (all : rowsValid s = srcH) (now : k = false ∨ s.skipCtr = 0)
    (fits : bytesNeeded s.cfgS s.cfgD ≤ s.cfgBufSize.toNat) (failed : flushAnswer s = false) :
    exec (.frameComplete k n) s
      = .next (respond (clearRows (flushFailed (composed Config.params
          (setSkip (if k = false ∨ n = 0 then 0 else n - 1) s))))) := by
  rw [exec_frameComplete_composite running configured all now fits, compositeFrame, flushAnswer_setSkip,
    if_neg (by simp [failed])]

/-- The compose pass after a reload of the counter, as a pass over the frame's own memories (R164). -/
theorem composed_setSkip_dpb (P : Params) (ctr : BitVec 8) (s : State) :
    (composed P (setSkip ctr s)).dpb
      = composePass P (Config.dpbUnspecified s.ramEpoch) s.cfgS s.cfgD (planeCell s) s.dpb := by
  simp only [composed_dpb, planeCell_setSkip, setSkip_ramEpoch, setSkip_cfgS, setSkip_cfgD, setSkip_dpb]

/-- A failed flush leaves OUT beyond the buffer as it was (R53, R181). -/
theorem read?_out_flushFailed {s : State} {a : Nat} (beyond : s.cfgBufSize.toNat ≤ a) :
    (flushFailed s).out.read? a = s.out.read? a := by
  rw [flushFailed_out, Memory.read?_writeRange, if_neg (by omega)]

/-- At the end of a frame that was flushed, an OUT byte of the buffer that nobody raced for is the DPB byte (R180). -/
theorem outByte_after_flushDone (o : LastOutcome) {u : State} {a : Nat} (inside : a < u.cfgBufSize.toNat)
    (unraced : ∀ c ∈ u.rivals, c.1 ≠ a) :
    outByte (respond (clearRows (setOutcome o (flushDone u)))) a
      = dpbByte (respond (clearRows (setOutcome o (flushDone u)))) a :=
  calc outByte (respond (clearRows (setOutcome o (flushDone u)))) a
    _ = outByte (flushDone u) a := congrFun (outByte_congr (by simp)) a
    _ = dpbByte u a := outByte_flushDone inside unraced
    _ = dpbByte (respond (clearRows (setOutcome o (flushDone u)))) a := congrFun (dpbByte_congr (by simp) (by simp)) a

/-- The whole state at the end of a frame that was flushed: the reload, the pass's DPB, the flush's OUT (R120, R180). -/
theorem state_after_flushDone (P : Params) (ctr : BitVec 8) (s : State) {t : State}
    (ends : t = respond (clearRows (setOutcome .composited (flushDone (composed P (setSkip ctr s)))))) :
    t = { s with
      dpb := t.dpb, out := t.out, lastOutcome := .composited, rowValid := 0
      skipCtr := ctr
      outbox := s.outbox ++ [status t]
      flushAnswers := s.flushAnswers.tail, rivals := [], draws := s.draws + 1 } := by
  obtain ⟨d, pass⟩ := composed_frame P (setSkip ctr s)
  rw [ends, pass]
  rfl

/-- The whole state at the end of a frame whose flush failed (R120, R181, R216). -/
theorem state_after_flushFailed (P : Params) (ctr : BitVec 8) (s : State) {t : State}
    (ends : t = respond (clearRows (flushFailed (composed P (setSkip ctr s))))) :
    t = { s with
      dpb := t.dpb, out := t.out, lastOutcome := .none, rowValid := 0
      errFlush := true, halted := true
      skipCtr := ctr
      outbox := s.outbox ++ [status t]
      flushAnswers := s.flushAnswers.tail, rivals := [], draws := s.draws + 1 } := by
  obtain ⟨d, pass⟩ := composed_frame P (setSkip ctr s)
  rw [ends, pass]
  rfl

/-- Settles O34: the composited path of FRAME_COMPLETE, the pass's DPB, and what the flush copies and leaves. -/
theorem frameIsComposedAndFlushed : Obligations.FrameIsComposedAndFlushed := by
  intro k n s running configured all now fits ok
  refine ⟨_, exec_frameComplete_flushed running configured all now fits ok, state_after_flushDone _ _ s rfl, ?_,
    fun a inside unraced => ?_, fun a beyond => ?_⟩
  · rw [respond_dpb, clearRows_dpb, setOutcome_dpb, flushDone_dpb, composed_setSkip_dpb]
  · exact outByte_after_flushDone .composited (by simpa using inside) (by simpa using unraced)
  · rw [respond_out, clearRows_out, setOutcome_out, read?_out_flushDone (by simpa using beyond), composed_out,
      setSkip_out]

/-- Settles O35: the failing path of FRAME_COMPLETE, the pass's DPB, and what the flush leaves. -/
theorem failedFlushHalts : Obligations.FailedFlushHalts := by
  intro k n s running configured all now fits failed
  refine ⟨_, exec_frameComplete_flushFailed running configured all now fits failed, state_after_flushFailed _ _ s rfl,
    ?_, fun a beyond => ?_⟩
  · rw [respond_dpb, clearRows_dpb, flushFailed_dpb, composed_setSkip_dpb]
  · rw [respond_out, clearRows_out, read?_out_flushFailed (by simpa using beyond), composed_out, setSkip_out]

end Sys2Proof.Machine
end

section
/-! PROOFS. Row positions, columns, the geometry check and aliasing: the statements of 42_scale_mapper.md, and the device
bits the compose pass leaves in a geometry without aliasing. -/

namespace Sys2Proof.Machine

/-! ### Row positions -/

/-- The advance to row `y` is 1 for every third row, from row 0 on, and 2 for the others (R140, R141). -/
theorem rowAcc_succ (y : Nat) : rowAcc (y + 1) = rowAcc y + if y % 3 = 0 then 1 else 2 := by
  have trigger : y * 2 % 6 = 0 ↔ y % 3 = 0 := by omega
  simp only [rowAcc, trigger]

/-- The accumulator in closed form (R141). -/
theorem rowAcc_succ_eq (y : Nat) : rowAcc (y + 1) = 5 * (y / 3) + 2 * (y % 3) := by
  induction y with
  | zero => rfl
  | succ y ih => rw [rowAcc_succ, ih]; split <;> omega

/-- RowPos in closed form, for every row number (R141). -/
theorem rowPos_eq (y : Nat) : rowPos y = 5 * (y / 3) + 2 * (y % 3) := by
  rw [rowPos, rowAcc_succ_eq]; omega

theorem rowPos_strictMono : StrictMono rowPos := fun y z before => by
  rw [rowPos_eq, rowPos_eq]; omega

/-- The third row of a period and the first of the next stand at neighbouring positions (R140). -/
theorem rowPos_succ_period (k : Nat) : rowPos (3 * k + 3) = rowPos (3 * k + 2) + 1 := by
  rw [rowPos_eq, rowPos_eq]; omega

/-- Three consecutive rows have one parity, that of their period (R143). -/
theorem rowParity_rowPos (y : Nat) : rowParity (rowPos y) = BitVec.ofNat 1 (y / 3) := by
  apply BitVec.eq_of_toNat_eq
  rw [rowParity, rowPos_eq, BitVec.toNat_ofNat, BitVec.toNat_ofNat]
  omega

/-- Of 144 rows, 48 advance by 1 (R141). -/
theorem countP_rowAcc_step_one : (List.range 144).countP (fun y => rowAcc (y + 1) == rowAcc y + 1) = 48 := by
  have step : (fun y => rowAcc (y + 1) == rowAcc y + 1) = fun y => decide (y % 3 = 0) := by
    funext y; rw [rowAcc_succ]; split <;> simp [*]
  rw [step]; decide

/-- Of 144 rows, the other 96 advance by 2 (R141). -/
theorem countP_rowAcc_step_two : (List.range 144).countP (fun y => rowAcc (y + 1) == rowAcc y + 2) = 96 := by
  have other (y : Nat) : (rowAcc (y + 1) == rowAcc y + 2) = decide ¬ (rowAcc (y + 1) == rowAcc y + 1) = true := by
    rw [rowAcc_succ]; split <;> simp
  have total := List.length_eq_countP_add_countP (l := List.range 144) fun y => rowAcc (y + 1) == rowAcc y + 1
  rw [List.length_range, countP_rowAcc_step_one, ← funext other] at total
  omega

/-- Settles O44: the closed form of the accumulator, and the two counts of its steps. -/
theorem rowPositionClosedForm : Obligations.RowPositionClosedForm :=
  ⟨fun _ => by omega, fun y inFrame => ⟨rowPos_eq y, rowPos_le inFrame⟩, rowPos_eq 143, countP_rowAcc_step_one,
    countP_rowAcc_step_two, fun y _ => rowParity_rowPos y⟩

/-- The printed table lists the positions of the rows in order (R142). -/
theorem rowLut_eq_map : rowLut = (List.range 144).map rowPos := by
  rw [funext rowPos_eq]; decide

/-- Settles O45: the table is the list of the row positions, which increase. -/
theorem rowLutIsTheRowPositions : Obligations.RowLutIsTheRowPositions := by
  unfold Obligations.RowLutIsTheRowPositions
  rw [rowLut_eq_map]
  refine ⟨by rw [List.length_map, List.length_range], fun y inFrame => ?_, ?_⟩
  · rw [List.getElem?_map, List.getElem?_range inFrame, Option.map_some]
  · exact List.pairwise_map.2 (List.pairwise_lt_range.imp fun before => rowPos_strictMono before)

/-- Settles O46: by the closed form, position `yy` is that of row `3 (yy div 5) + (yy mod 5) div 2`. -/
theorem visitedPositions : Obligations.VisitedPositions := by
  refine ⟨fun yy => ⟨?_, fun visited => ⟨3 * (yy / 5) + yy % 5 / 2, ?_, ?_⟩⟩,
    fun y _ z _ same => rowPos_strictMono.injective same⟩
  · rintro ⟨y, inFrame, rfl⟩
    rw [rowPos_eq]; omega
  · omega
  · rw [rowPos_eq]; omega

/-! ### Columns and pixel addresses -/

theorem colL_eq (x : Nat) : colL x = 40 + 2 * x := rfl

theorem colR_eq (x : Nat) : colR x = 41 + 2 * x := rfl

/-- Settles O47: column `c` is one of the two of source column `(c - 40) div 2`. -/
theorem columnsCoverTheImageOnce : Obligations.ColumnsCoverTheImageOnce := by
  unfold Obligations.ColumnsCoverTheImageOnce
  simp only [colL_eq, colR_eq, true_and]
  refine ⟨fun c => ⟨fun inImage => ⟨(c - 40) / 2, by omega, by omega⟩, ?_⟩, fun x _ x' _ => by omega,
    fun x => by omega⟩
  rintro ⟨x, inRow, column⟩
  omega

/-- Settles O48: the shared byte of a sample's columns, and the two bit orders. -/
theorem pixelAddressesOfASample : Obligations.PixelAddressesOfASample := by
  intro base x _
  rw [← Nat.add_assoc]
  refine ⟨pixelByte_colL base x, pixelByte_colR base x, ?_⟩
  simp only [pixelBit, colL_eq, colR_eq]
  omega

/-! ### The geometry check -/

/-- Every pixel byte of a frame lies below the size the geometry check asks for (R147). -/
theorem pixelByte_lt_bytesNeeded (S D : Word) {y x : Nat} (inFrame : y < srcH) (inRow : x < srcW) (sec right : Bool) :
    pixelByte (scanBase S D sec (rowPos y)) (column right x) < bytesNeeded S D :=
  addr_lt_of_mem_passWrites (P := ⟨.lsbFirst, 0⟩) (cell := fun _ _ => 0)
    (mem_passWrites.2 ⟨y, inFrame, x, inRow, mem_sampleWrites.2 ⟨sec, right, rfl⟩⟩)

/-- The last pixel byte of the last row's secondary scanline is the last byte the geometry check asks for (R147). -/
theorem pixelByte_last (S D : Word) : pixelByte (secBase S D (rowPos 143)) (colR 159) + 1 = bytesNeeded S D := by
  rw [pixelByte_colR, rowPos_eq, secBase, bytesNeeded]

/-- Settles O49: the bound is above every pixel byte, and just above the last one. -/
theorem geometryFitsIsExact : Obligations.GeometryFitsIsExact := by
  intro cap S D size
  rw [geometryFits_iff]
  refine and_congr_left' ⟨fun fits y inFrame x inRow => ?_, fun inside => ?_⟩
  · have below (sec right : Bool) : pixelByte (scanBase S D sec (rowPos y)) (column right x) < size.toNat :=
      (pixelByte_lt_bytesNeeded S D inFrame inRow sec right).trans_le fits
    exact ⟨below false false, below false true, below true false, below true true⟩
  · obtain ⟨_, _, _, last⟩ := inside 143 (by omega) 159 (by omega)
    rw [← pixelByte_last]
    exact last

/-! ### Aliasing -/

/-- No two scanlines share an image byte exactly when the bases of any two are at least 40 apart (R149). -/
theorem nonAliasing_iff {S D : Word} :
    NonAliasing S D ↔ ∀ y < 144, ∀ z < 144, ∀ b c : Bool, (y, b) ≠ (z, c) →
      40 ≤ ((scanBase S D c (rowPos z) : Int) - scanBase S D b (rowPos y)).natAbs := by
  have apart (p q : Nat) : p + 40 ≤ q ∨ q + 40 ≤ p ↔ 40 ≤ ((q : Int) - p).natAbs := by omega
  simp only [NonAliasing, apart]

/-- Two primary or two secondary scanlines are as many strides apart as their positions (R145). -/
theorem scanBase_sub_scanBase (S D : Word) (b : Bool) (p q : Nat) :
    (scanBase S D b q : Int) - scanBase S D b p = ((q : Int) - p) * S.toNat := by
  cases b <;> simp only [scanBase, primBase, secBase, Bool.false_eq_true, if_false, if_true] <;> push_cast <;> ring

/-- How far a secondary scanline stands behind a primary one (R145). -/
theorem scanBase_true_sub_scanBase_false (S D : Word) (p q : Nat) :
    (scanBase S D true q : Int) - scanBase S D false p = (D.toNat : Int) - ((p : Int) - q) * S.toNat := by
  simp only [scanBase, primBase, secBase, Bool.false_eq_true, if_false, if_true]; push_cast; ring

/-- A stride of 40 or more keeps different rows' primary scanlines apart, and their secondary ones (R149). -/
theorem le_natAbs_scanBase_sub_of_ne {S : Word} (stride : 40 ≤ S.toNat) (D : Word) (b : Bool) {y z : Nat}
    (differ : y ≠ z) :
    40 ≤ ((scanBase S D b (rowPos z) : Int) - scanBase S D b (rowPos y)).natAbs := by
  have positions : rowPos y ≠ rowPos z := rowPos_strictMono.injective.ne differ
  calc 40
    _ ≤ 1 * S.toNat := by omega
    _ ≤ ((rowPos z : Int) - rowPos y).natAbs * S.toNat := Nat.mul_le_mul_right _ (by omega)
    _ = _ := by rw [scanBase_sub_scanBase, Int.natAbs_mul, Int.natAbs_natCast]

/-- Settles O51: two scanlines of one kind are a multiple of S apart, S itself among them; a primary and a secondary one
D less such a multiple. -/
theorem aliasingCases : Obligations.AliasingCases := by
  intro S D
  rw [nonAliasing_iff]
  constructor
  · intro apart
    refine ⟨?_, fun y hy z hz => ?_⟩
    · have neighbours := apart 2 (by omega) 3 (by omega) false false (by simp)
      rw [scanBase_sub_scanBase, rowPos_succ_period 0] at neighbours
      push_cast at neighbours
      rwa [add_sub_cancel_left, one_mul, Int.natAbs_natCast] at neighbours
    · rw [← scanBase_true_sub_scanBase_false S D]
      exact apart y hy z hz false true (by simp)
  · rintro ⟨stride, delta⟩ y hy z hz b c differ
    match b, c with
    | false, true =>
      rw [scanBase_true_sub_scanBase_false]
      exact delta y hy z hz
    | true, false =>
      rw [← Int.natAbs_neg, neg_sub, scanBase_true_sub_scanBase_false]
      exact delta z hz y hy
    | false, false | true, true =>
      exact le_natAbs_scanBase_sub_of_ne stride D _ fun same => differ (by rw [same])

/-- The source's strides give no aliasing: 52 is at least 40 away from every multiple of 400 (R148). -/
theorem nonAliasing_400_52 : NonAliasing 400 52 := by
  have stride : (400 : Word).toNat = 400 := rfl
  have delta : (52 : Word).toNat = 52 := rfl
  refine (aliasingCases 400 52).2 ⟨by omega, fun y _ z _ => ?_⟩
  rw [stride, delta]
  omega

/-- With one stride the secondary scanline of a position is the primary one of the next (R148). -/
theorem secBase_eq_primBase_succ (L : Word) (yy : Nat) : secBase L L yy = primBase L (yy + 1) :=
  (Nat.succ_mul yy L.toNat).symm

/-- In a geometry without aliasing, two scanlines with a common image byte are one: one row and one kind (R149). -/
theorem NonAliasing.scanline_inj {S D : Word} (nonAliasing : NonAliasing S D) {y z i j : Nat} {b c : Bool}
    (hy : y < srcH) (hz : z < srcH) (hi : i < 40) (hj : j < 40)
    (same : scanBase S D b (rowPos y) + i = scanBase S D c (rowPos z) + j) : y = z ∧ b = c := by
  by_contra differ
  have := nonAliasing y hy z hz b c (by simpa using differ)
  omega

/-- Settles O50: the case of 400 and 52, and the two equal bases of one stride. -/
theorem aliasingOfTwoGeometries : Obligations.AliasingOfTwoGeometries := by
  refine ⟨nonAliasing_400_52, fun L k _ inFrame => ?_⟩
  have shared : secBase L L (rowPos (3 * k + 2)) = primBase L (rowPos (3 * k + 3)) := by
    rw [secBase_eq_primBase_succ, rowPos_succ_period]
  refine ⟨shared, fun nonAliasing => ?_⟩
  have upper : 3 * k + 2 < 144 := by omega
  have lower : 3 * k + 3 < 144 := by omega
  obtain ⟨rows, _⟩ := nonAliasing.scanline_inj (b := true) (c := false) (i := 0) (j := 0) upper lower (by omega) (by omega)
    shared
  omega

/-! ### The device bits of the compose pass -/

/-- The device bit after the pass: the last value written there, else the old one (R164, R165). -/
theorem deviceBit_composePass (P : Params) (o : BitOrder) (back : Nat → Byte) (S D : Word) (cell : Nat → Nat → Gray)
    (m : Memory Byte) (base xx : Nat) :
    deviceBit o back (composePass P back S D cell m) base xx
      = (lastWrite (pixelByte base xx) (pixelBit o xx) (passWrites P S D cell)).getD (deviceBit o back m base xx) := by
  rw [deviceBit, composePass_eq_putAll,
    getLsbD_putAll back _ m (fun _ => bit_lt_of_mem_passWrites) _ _ (pixelBit_lt o xx), deviceBit]

/-- In a geometry without aliasing, two writes of the pass to one device bit are one write (R149). -/
theorem NonAliasing.write_inj {S D : Word} (nonAliasing : NonAliasing S D) {o : BitOrder} {y y' x x' : Nat}
    {sec sec' right right' : Bool} (hy : y < srcH) (hy' : y' < srcH) (hx : x < srcW) (hx' : x' < srcW)
    (same : SameDeviceBit o (scanBase S D sec (rowPos y)) (column right x)
      (scanBase S D sec' (rowPos y')) (column right' x')) :
    y = y' ∧ x = x' ∧ sec = sec' ∧ right = right' := by
  obtain ⟨byte, bit⟩ := same
  have bytes := byte
  rw [pixelByte_column, pixelByte_column] at bytes
  simp only [srcW] at hx hx'
  obtain ⟨rfl, rfl⟩ := nonAliasing.scanline_inj (b := sec) (c := sec') (i := x / 4) (j := x' / 4) hy hy' (by omega)
    (by omega) (by omega)
  obtain ⟨rfl, rfl⟩ := column_inj (eq_of_device_bit_eq byte bit)
  exact ⟨rfl, rfl, rfl, rfl⟩

/-- In a geometry without aliasing, the pass leaves each sample's pattern in its device bits (R146, R161). -/
theorem deviceBit_composePass_of_nonAliasing (P : Params) (back : Nat → Byte) {S D : Word} (nonAliasing : NonAliasing S D)
    (cell : Nat → Nat → Gray) (m : Memory Byte) {y x : Nat} (hy : y < srcH) (hx : x < srcW) (sec right : Bool) :
    deviceBit P.bitOrder back (composePass P back S D cell m) (scanBase S D sec (rowPos y)) (column right x)
      = (dither P.ditherPhase (cell y x) (rowParity (rowPos y))).bit sec right := by
  rw [deviceBit_composePass,
    lastWrite_eq _ (mem_passWrites.2 ⟨y, hy, x, hx, mem_sampleWrites.2 ⟨sec, right, rfl⟩⟩) rfl rfl, Option.getD_some]
  intro u written sameByte sameBit
  obtain ⟨y', hy', x', hx', ofSample⟩ := mem_passWrites.1 written
  obtain ⟨sec', right', rfl⟩ := mem_sampleWrites.1 ofSample
  obtain ⟨rfl, rfl, rfl, rfl⟩ := nonAliasing.write_inj hy' hy hx' hx ⟨sameByte, sameBit⟩
  rfl

/-- Settles O56: the four writes of a sample, each alone at its device bit. -/
theorem composeDrawsEverySample : Obligations.ComposeDrawsEverySample := by
  intro P back S D cell m nonAliasing y hy x hx
  have drawn := deviceBit_composePass_of_nonAliasing P back nonAliasing cell m hy hx
  exact ⟨drawn false false, drawn false true, drawn true false, drawn true true⟩

end Sys2Proof.Machine
end

section
/-! PROOFS. The pattern table, SetBit and the compose pass in every geometry: the statements of 43_ditherer.md. -/

namespace Sys2Proof.Machine

/-! ### The pattern table -/

/-- The pattern of a middle level: each scanline lights one of its two columns, the secondary one the other (R163). -/
def checker (left : Bool) : Pattern := ⟨left, !left, !left, left⟩

theorem dither_white (phase p : BitVec 1) : dither phase 0 p = ⟨true, true, true, true⟩ := rfl

theorem dither_black (phase p : BitVec 1) : dither phase 3 p = ⟨false, false, false, false⟩ := rfl

/-- Level 1 lights the left primary column where `q = p ^ DITHER_PHASE` is 0 (R161). -/
theorem dither_one (phase p : BitVec 1) : dither phase 1 p = checker (decide (p ^^^ phase = 0)) := by
  change (if p ^^^ phase = 0 then _ else _) = _
  split
  next q => rw [decide_eq_true q]; rfl
  next q => rw [decide_eq_false q]; rfl

/-- Level 2 lights it where `q` is 1 (R161). -/
theorem dither_two (phase p : BitVec 1) : dither phase 2 p = checker (!decide (p ^^^ phase = 0)) := by
  change (if p ^^^ phase = 0 then _ else _) = _
  split
  next q => rw [decide_eq_true q]; rfl
  next q => rw [decide_eq_false q]; rfl

/-- The other parity is the other `q` (R161). -/
theorem decide_flip_xor_eq_zero (phase p : BitVec 1) :
    decide ((p ^^^ 1) ^^^ phase = 0) = !decide (p ^^^ phase = 0) := by
  revert phase p; decide

/-- Settles O52: the rows of the table, the middle ones by `q`. -/
theorem ditherTable : Obligations.DitherTable := by
  intro phase p
  refine ⟨dither_white phase p, fun q => ?_, fun q => ?_, fun q => ?_, fun q => ?_, dither_black phase p⟩
  · rw [dither_one, q]; rfl
  · rw [dither_one, q]; rfl
  · rw [dither_two, q]; rfl
  · rw [dither_two, q]; rfl

/-- A middle level has one checker at a parity and the opposite one at the other parity (R163). -/
theorem exists_dither_eq_checker (phase p : BitVec 1) {g : Gray} (middle : g = 1 ∨ g = 2) :
    ∃ left, dither phase g p = checker left ∧ dither phase g (p ^^^ 1) = checker (!left) := by
  rcases middle with rfl | rfl
  · exact ⟨_, dither_one phase p, by rw [dither_one, decide_flip_xor_eq_zero]⟩
  · exact ⟨_, dither_two phase p, by rw [dither_two, decide_flip_xor_eq_zero]⟩

/-- What R163 says of a checker: two bits lit, mirrored scanlines, and another pattern than the opposite one. -/
theorem checker_mirrors (left : Bool) :
    [(checker left).pl, (checker left).pr, (checker left).sl, (checker left).sr].count true = 2
      ∧ (checker left).pl = !(checker left).pr ∧ (checker left).sl = (checker left).pr
      ∧ (checker left).sr = (checker left).pl ∧ checker left ≠ checker (!left) := by
  revert left; decide

/-- Level 2 is level 1 at the other parity (R163). -/
theorem dither_two_eq_dither_one_flip (phase p : BitVec 1) : dither phase 2 p = dither phase 1 (p ^^^ 1) := by
  rw [dither_two, dither_one, decide_flip_xor_eq_zero]

/-- Settles O53: both middle levels are checkers, level 2 the opposite of level 1. -/
theorem middleLevelsMirrorAndSwap : Obligations.MiddleLevelsMirrorAndSwap := by
  refine ⟨fun phase => ?_, fun phase p g middle => ?_⟩
  · rw [dither_one, show (0 : BitVec 1) ^^^ phase = phase from BitVec.zero_xor]; rfl
  · obtain ⟨left, here, flipped⟩ := exists_dither_eq_checker phase p middle
    obtain ⟨twoLit, primary, secondaryLeft, secondaryRight, other⟩ := checker_mirrors left
    rw [here, flipped]
    refine ⟨twoLit, primary, secondaryLeft, secondaryRight, other, dither_two_eq_dither_one_flip phase p, ?_⟩
    rw [dither_one, dither_two]
    exact ⟨rfl, Bool.not_not _⟩

/-! ### SetBit -/

/-- Settles O54: SetBit is one bit write, at its pixel address. -/
theorem setBitWritesOneBit : Obligations.SetBitWritesOneBit := by
  intro o back m base xx v
  rw [setBit_eq_put]
  refine ⟨fun a other => ?_, fun b inByte => ?_⟩
  · rw [read?_put, if_neg]
    exact other
  · rw [getLsbD_put _ _ _ (pixelBit_lt o xx) _ _ inByte]
    simp only [pixelByte, true_and]

/-! ### The bytes the pass writes -/

/-- Settles O55: no write of the pass goes outside the image. -/
theorem composeWritesImageBytesOnly : Obligations.ComposeWritesImageBytesOnly := by
  intro P back S D cell m a outside
  rw [composePass_eq_putAll]
  refine read?_putAll_of_forall_ne _ _ _ _ fun w written here => outside ?_
  exact here ▸ imageByte_of_mem_passWrites written

/-- Each bit of each byte has its device column (R54). -/
theorem exists_device_column (o : BitOrder) (i : Nat) {b : Nat} (inByte : b < 8) :
    ∃ xx, xx / 8 = i ∧ pixelBit o xx = b := by
  cases o with
  | msbFirst => exact ⟨8 * i + (7 - b), by omega, by simp only [pixelBit]; omega⟩
  | lsbFirst => exact ⟨8 * i + b, by omega, by simp only [pixelBit]; omega⟩

/-- Each device column of the image is a column of a sample (R144). -/
theorem exists_column_eq {xx : Nat} (first : 40 ≤ xx) (last : xx < 360) : ∃ x < srcW, ∃ right, column right x = xx := by
  obtain ⟨cover, _, _⟩ := columnsCoverTheImageOnce
  obtain ⟨x, inRow, left | right⟩ := (cover xx).1 ⟨first, last⟩
  · exact ⟨x, inRow, false, left.symm⟩
  · exact ⟨x, inRow, true, right.symm⟩

/-- The pass writes every bit of every image byte (R165, R168). -/
theorem exists_mem_passWrites_of_imageByte (P : Params) {S D : Word} (cell : Nat → Nat → Gray) {a b : Nat}
    (image : ImageByte S D a) (inByte : b < 8) : ∃ w ∈ passWrites P S D cell, w.addr = a ∧ w.bit = b := by
  obtain ⟨y, inFrame, sec, first, last⟩ := image
  obtain ⟨xx, byte, bit⟩ := exists_device_column P.bitOrder (a - scanBase S D sec (rowPos y)) inByte
  obtain ⟨x, inRow, right, rfl⟩ := exists_column_eq (xx := xx) (by omega) (by omega)
  refine ⟨_, mem_passWrites.2 ⟨y, inFrame, x, inRow, mem_sampleWrites.2 ⟨sec, right, rfl⟩⟩, ?_, bit⟩
  simp only [pixelByte]
  omega

/-- What an image byte holds after the pass: the last write to each of its bits, whatever it held before (R165, R168). -/
theorem read?_composePass_eq_some_iff (P : Params) (back : Nat → Byte) {S D : Word} (cell : Nat → Nat → Gray)
    (m : Memory Byte) {a : Nat} (image : ImageByte S D a) (v : Byte) :
    (composePass P back S D cell m).read? a = some v
      ↔ ∀ b < 8, lastWrite a b (passWrites P S D cell) = some (v.getLsbD b) := by
  have written {b : Nat} (inByte : b < 8) := exists_mem_passWrites_of_imageByte P cell image inByte
  obtain ⟨u, listed⟩ : ∃ u, (putAll back (passWrites P S D cell) m).read? a = some u := by
    obtain ⟨w, made, here, _⟩ := written (b := 0) (by omega)
    exact Option.isSome_iff_exists.1 (isSome_read?_putAll back _ m a (.inr ⟨w, made, here⟩))
  have bits (b : Nat) (inByte : b < 8) : lastWrite a b (passWrites P S D cell) = some (u.getLsbD b) := by
    obtain ⟨w, made, here, bit⟩ := written inByte
    obtain ⟨last, found⟩ := Option.isSome_iff_exists.1 (lastWrite_isSome w made here bit)
    have stays := getLsbD_putAll back (passWrites P S D cell) m (fun _ => bit_lt_of_mem_passWrites) a b inByte
    rw [memByte, listed, found, Option.getD_some, Option.getD_some] at stays
    rw [found, stays]
  rw [composePass_eq_putAll, listed, Option.some_inj, BitVec.eq_of_getLsbD_eq_iff]
  exact forall₂_congr fun b inByte => by rw [bits b inByte, Option.some_inj]

/-- Settles O57: an image byte holds the last writes to its bits, and these come from the plane. -/
theorem imageBytesDependOnThePlaneOnly : Obligations.ImageBytesDependOnThePlaneOnly := by
  intro P back back' S D cell m m' a image
  ext v
  rw [read?_composePass_eq_some_iff P back cell m image, read?_composePass_eq_some_iff P back' cell m' image]

/-- Settles O58: an image byte does not depend on the first pass, another byte is changed by neither. -/
theorem composeIsIdempotent : Obligations.ComposeIsIdempotent := by
  intro P back S D cell m a
  by_cases image : ImageByte S D a
  · exact imageBytesDependOnThePlaneOnly P back back S D cell _ m a image
  · exact composeWritesImageBytesOnly P back S D cell _ a image

theorem bit_dither_white (phase p : BitVec 1) (sec right : Bool) : (dither phase 0 p).bit sec right = true := by
  cases sec <;> cases right <;> rfl

/-- Settles O60: every write of the pass lights its bit. -/
theorem whiteFrameLightsEveryImageByte : Obligations.WhiteFrameLightsEveryImageByte := by
  intro P back S D cell m a white image
  rw [read?_composePass_eq_some_iff P back cell m image]
  intro b inByte
  have lit : (0xFF : Byte).getLsbD b = true := (show ∀ b < 8, (0xFF : Byte).getLsbD b = true by decide) b inByte
  obtain ⟨w, made, here, bit⟩ := exists_mem_passWrites_of_imageByte P cell image inByte
  rw [lit]
  refine lastWrite_eq w made here bit fun u written _ _ => ?_
  obtain ⟨y, inFrame, x, inRow, ofSample⟩ := mem_passWrites.1 written
  obtain ⟨sec, right, rfl⟩ := mem_sampleWrites.1 ofSample
  rw [white y inFrame x inRow]
  exact bit_dither_white _ _ sec right

/-! ### The compose order -/

/-- A write whose device bit no later write of the compose order shares leaves its pattern bit there (R166). -/
theorem deviceBit_composePass_of_last (P : Params) (back : Nat → Byte) (S D : Word) (cell : Nat → Nat → Gray)
    (m : Memory Byte) {y x : Nat} (inFrame : y < srcH) (inRow : x < srcW) (sec right : Bool)
    (last : ∀ y' < srcH, ∀ x' < srcW, ∀ sec' right' : Bool, writeNumber y x sec right < writeNumber y' x' sec' right' →
      ¬ SameDeviceBit P.bitOrder (scanBase S D sec (rowPos y)) (column right x)
          (scanBase S D sec' (rowPos y')) (column right' x')) :
    deviceBit P.bitOrder back (composePass P back S D cell m) (scanBase S D sec (rowPos y)) (column right x)
      = (dither P.ditherPhase (cell y x) (rowParity (rowPos y))).bit sec right := by
  have stays := lastWrite_map_of_last (f := WriteKey.bitWrite P S D cell) (k := (y, x, sec, right)) pairwise_passKeys
    (mem_passKeys.2 ⟨inFrame, inRow⟩) fun ⟨y', x', sec', right'⟩ listed later =>
      last y' (mem_passKeys.1 listed).1 x' (mem_passKeys.1 listed).2 sec' right' later
  simp only [WriteKey.bitWrite] at stays
  rw [deviceBit_composePass, passWrites_eq_map, stays, Option.getD_some]

/-- The device bit a write goes to: byte address and bit in the byte (R54). -/
def WriteKey.deviceBit (o : BitOrder) (S D : Word) : WriteKey → Nat × Nat
  | (y, x, sec, right) =>
    (pixelByte (scanBase S D sec (rowPos y)) (column right x), pixelBit o (column right x))

theorem WriteKey.deviceBit_eq_iff {o : BitOrder} {S D : Word} {y x y' x' : Nat} {sec right sec' right' : Bool} :
    WriteKey.deviceBit o S D (y, x, sec, right) = WriteKey.deviceBit o S D (y', x', sec', right')
      ↔ SameDeviceBit o (scanBase S D sec (rowPos y)) (column right x)
          (scanBase S D sec' (rowPos y')) (column right' x') :=
  Prod.mk_inj

/-- Of the writes of the pass to one device bit there is a last one in the compose order (R166). -/
theorem exists_last_write (o : BitOrder) (S D : Word) {k : WriteKey} (inPass : k ∈ passKeys) :
    ∃ l ∈ passKeys, k.number ≤ l.number ∧ k.deviceBit o S D = l.deviceBit o S D
      ∧ ∀ n ∈ passKeys, l.number < n.number → l.deviceBit o S D ≠ n.deviceBit o S D := by
  obtain ⟨l, listed, greatest⟩ := Finset.exists_max_image
    {n ∈ passKeys.toFinset | k.deviceBit o S D = n.deviceBit o S D} WriteKey.number
    ⟨k, Finset.mem_filter.2 ⟨List.mem_toFinset.2 inPass, rfl⟩⟩
  simp only [Finset.mem_filter, List.mem_toFinset] at listed greatest
  obtain ⟨listed, same⟩ := listed
  exact ⟨l, listed, greatest k ⟨inPass, rfl⟩, same, fun n hn later shared =>
    (greatest n ⟨hn, same.trans shared⟩).not_gt later⟩

/-- With S = D = 0 every scanline stands at 0 (R145). -/
theorem scanBase_zero (sec : Bool) (yy : Nat) : scanBase 0 0 sec yy = 0 := by
  cases sec <;> simp [scanBase, primBase, secBase]

/-- The secondary scanline of row 143 comes last among the writes of one column. -/
theorem writeNumber_le_of_lastRow {y : Nat} (inFrame : y < srcH) (x : Nat) (sec right : Bool) :
    writeNumber y x sec right ≤ writeNumber 143 x true right := by
  have := sec.toNat_le
  simp only [writeNumber, srcW, srcH, Bool.toNat_true] at *
  omega

/-- With S = D = 0 the secondary pattern of row 143 is what is left in both columns of a sample (V-M11). -/
theorem deviceBit_composePass_zero (P : Params) (back : Nat → Byte) (cell : Nat → Nat → Gray) (m : Memory Byte) {x : Nat}
    (inRow : x < srcW) (right : Bool) :
    deviceBit P.bitOrder back (composePass P back 0 0 cell m) 0 (column right x)
      = (dither P.ditherPhase (cell 143 x) 1).bit true right := by
  have parity : rowParity (rowPos 143) = 1 := rowParity_rowPos 143
  have stays := deviceBit_composePass_of_last P back 0 0 cell m (y := 143) (by decide) inRow true right
  rw [scanBase_zero, parity] at stays
  refine stays fun y' inFrame' x' _ sec' right' later ⟨byte, bit⟩ => ?_
  rw [scanBase_zero] at byte
  obtain ⟨rfl, rfl⟩ := column_inj (eq_of_device_bit_eq byte bit)
  exact (writeNumber_le_of_lastRow inFrame' x sec' right).not_gt later

/-- Settles O59: the pass writes in the compose order, so the last write to a device bit stays. -/
theorem lastWriteOfTheComposeOrderStays : Obligations.LastWriteOfTheComposeOrderStays := by
  refine ⟨fun P back S D cell m y inFrame x inRow sec right last =>
      deviceBit_composePass_of_last P back S D cell m inFrame inRow sec right last,
    fun o S D y inFrame x inRow sec right => ?_,
    fun P back cell m x inRow => ⟨deviceBit_composePass_zero P back cell m inRow false,
      deviceBit_composePass_zero P back cell m inRow true⟩⟩
  obtain ⟨⟨y', x', sec', right'⟩, listed, notEarlier, same, last⟩ :=
    exists_last_write o S D (k := (y, x, sec, right)) (mem_passKeys.2 ⟨inFrame, inRow⟩)
  obtain ⟨inFrame', inRow'⟩ := mem_passKeys.1 listed
  refine ⟨y', inFrame', x', inRow', sec', right', notEarlier, WriteKey.deviceBit_eq_iff.1 same, ?_⟩
  intro y'' inFrame'' x'' inRow'' sec'' right'' later shared
  exact last (y'', x'', sec'', right'') (mem_passKeys.2 ⟨inFrame'', inRow''⟩) later (WriteKey.deviceBit_eq_iff.2 shared)

end Sys2Proof.Machine
end

section
/-! PROOFS. The statements of 45_control.md: NOP, READ_STATUS, CLEAR_ERRORS, RESET and CONFIG. -/

namespace Sys2Proof.Machine

/-! ### The responding commands and the two recoveries -/

/-- Settles O19: both commands only respond, and a response is STATUS appended. -/
theorem nopAndReadStatusOnlyRespond : Obligations.NopAndReadStatusOnlyRespond :=
  fun s => ⟨exec_nop s, exec_readStatus s⟩

/-- Settles O20: the recovery from recoverable errors, then the response. -/
theorem clearErrorsClearsTheRecoverableFlags : Obligations.ClearErrorsClearsTheRecoverableFlags :=
  fun s => ⟨_, exec_clearErrors s, rfl⟩

/-- After the reset sequence the response is the word 0, STATUS of the reset registers (R35, R195, R241). -/
theorem respond_resetSequence (s : State) :
    respond (resetSequence s) = { resetSequence s with outbox := s.outbox ++ [0x00000000] } := by
  rw [respond, status_resetSequence, resetSequence_outbox]

/-- Settles O21: the reset sequence sets every register as in the reset state, and responds with 0. -/
theorem resetCommandRestoresTheResetState : Obligations.ResetCommandRestoresTheResetState := by
  intro s
  refine ⟨_, exec_reset s, ?_⟩
  rw [respond_resetSequence]
  rfl

/-! ### CONFIG -/

/-- In an unconfigured, running block a geometry that does not fit is a ConfigMismatch (R193, R215). -/
theorem exec_config_mismatch {S D size : Word} {fill : Byte} {s : State} (running : s.halted = false)
    (unconfigured : s.cfgValid = false) (unfit : ¬ geometryFits Config.maxBufBytes S D size = true) :
    exec (.config S D size fill) s = .next (respond (raise .configMismatch s)) := by
  rw [exec, execConfig, configure, if_neg (by simp [running, unconfigured]), if_neg unfit]

/-- Settles O24: the loading path at the block's own capacity, or the mismatch. -/
theorem configLoadsAFittingGeometryOrHalts : Obligations.ConfigLoadsAFittingGeometryOrHalts := by
  intro S D size fill s running unconfigured
  obtain ⟨exec_eq_configure, loads⟩ := configLoadsForEveryCapacity
  split_ifs with bounds
  · obtain ⟨needed, within⟩ := bounds
    rw [exec_eq_configure]
    exact loads Config.maxBufBytes S D size fill s running unconfigured needed within
  · have unfit : ¬ geometryFits Config.maxBufBytes S D size = true := fun fits => bounds (geometryFits_iff.1 fits)
    exact ⟨_, exec_config_mismatch running unconfigured unfit, rfl⟩

end Sys2Proof.Machine
end

section
/-! PROOFS. The error conditions, the channel and the actions from outside: the statements of 60_exceptions.md. -/

namespace Sys2Proof

/-! ### How many words the decoder takes -/

/-- A command word of a defined opcode is followed by its payload (R71, R81). -/
theorem commandLength_of_opcode {op : Opcode} {w : Word} (opcode : Opcode.ofBits (cmdOpcode w) = some op) :
    commandLength w = op.payloadWords + 1 := by
  rw [commandLength, opcode, Nat.add_comm]

/-- A word of a reserved opcode stands alone (R78, R81). -/
theorem commandLength_of_reservedOpcode {w : Word} (reserved : Opcode.ofBits (cmdOpcode w) = none) :
    commandLength w = 1 := by
  rw [commandLength, reserved]

theorem commandLength_pos (w : Word) : 0 < commandLength w := by
  cases opcode : Opcode.ofBits (cmdOpcode w) with
  | none => simp [commandLength_of_reservedOpcode opcode]
  | some op => simp [commandLength_of_opcode opcode]

/-- With fewer words than the first one asks for the decoder waits (R71; log 2). -/
theorem decode_unfinished {w : Word} {words : List Word} (short : words.length + 1 < commandLength w) :
    decode (w :: words) = .unfinished := by
  cases opcode : Opcode.ofBits (cmdOpcode w) with
  | none =>
    rw [commandLength_of_reservedOpcode opcode] at short
    omega
  | some op =>
    rw [commandLength_of_opcode opcode] at short
    simp [decode, opcode, Nat.lt_of_add_lt_add_right short]

/-- With as many words as the first one asks for the decoder takes exactly those, for a command and for an illegal
one (R71, R78, R79, R81). -/
theorem decode_whole {w : Word} {words : List Word} (whole : commandLength w ≤ words.length + 1) :
    (∃ i, decode (w :: words) = .command i ((w :: words).drop (commandLength w)))
      ∨ ∃ why, decode (w :: words) = .illegal why ((w :: words).drop (commandLength w)) := by
  cases opcode : Opcode.ofBits (cmdOpcode w) with
  | none =>
    rw [commandLength_of_reservedOpcode opcode]
    exact .inr ⟨_, Machine.decode_reservedOpcode opcode words⟩
  | some op =>
    rw [commandLength_of_opcode opcode] at whole ⊢
    have long : op.payloadWords ≤ words.length := Nat.le_of_add_le_add_right whole
    have payload : (words.take op.payloadWords).length = op.payloadWords := List.length_take_of_le long
    rw [List.drop_succ_cons]
    by_cases fields : w &&& op.mask = op.pattern ∧ ∃ i, operands op w (words.take op.payloadWords) = some i
    · obtain ⟨unreserved, i, spelled⟩ := fields
      have head := decode_cons_append opcode payload unreserved spelled (words.drop op.payloadWords)
      rw [List.take_append_drop] at head
      exact .inl ⟨i, head⟩
    · have broken : w &&& op.mask ≠ op.pattern ∨ operands op w (words.take op.payloadWords) = none := by
        rwa [not_and_or, ← Option.isSome_iff_exists, Option.not_isSome_iff_eq_none] at fields
      obtain ⟨why, head⟩ := Machine.decode_reservedBits opcode payload broken (words.drop op.payloadWords)
      rw [List.take_append_drop] at head
      exact .inr ⟨why, head⟩

/-- The decoder waits for a word only while the words before it are fewer than the first one asks for. -/
theorem length_lt_of_decode_unfinished {w : Word} {words : List Word} (waits : decode (w :: words) = .unfinished) :
    words.length + 1 < commandLength w := by
  by_contra whole
  obtain ⟨i, head⟩ | ⟨why, head⟩ := decode_whole (Nat.le_of_not_lt whole) <;> simp [waits] at head

namespace Machine

/-! ### The channel -/

/-- Settles O7: in both cases the decoder answers that the command is unfinished. -/
theorem stepWaitsForAWholeCommand : Obligations.StepWaitsForAWholeCommand := by
  intro s short
  have waits : decode s.inbox = .unfinished := by
    cases channel : s.inbox with
    | nil => rfl
    | cons w words => exact decode_unfinished (short w words channel)
  rw [step, waits]

/-- A send the channel duties allow begins a command or goes into an unfinished one: the channel then holds at most the
words its first word asks for (R81, R231). -/
theorem length_le_of_dutiful_send {s : State} {w : Word} (dutiful : dutifulAction s (.send w) = true) :
    ∃ v words, (hostAct (.send w) s).inbox = v :: words ∧ words.length + 1 ≤ commandLength v := by
  obtain ⟨waits, _⟩ : decode s.inbox = .unfinished ∧ _ := by simpa [dutifulAction] using dutiful
  simp only [hostAct]
  cases channel : s.inbox with
  | nil => exact ⟨w, [], rfl, commandLength_pos w⟩
  | cons v words =>
    rw [channel] at waits
    refine ⟨v, words ++ [w], rfl, ?_⟩
    simpa using length_lt_of_decode_unfinished waits

/-- Settles O11: the decoder takes what the first word asks for, and there is no more than that. -/
theorem dutifulHostSendsOneCommand : Obligations.DutifulHostSendsOneCommand := by
  intro s w dutiful
  obtain ⟨v, words, channel, atMost⟩ := length_le_of_dutiful_send dutiful
  have nothingLeft : (v :: words).drop (commandLength v) = [] := List.drop_eq_nil_of_le atMost
  rw [channel]
  by_cases short : words.length + 1 < commandLength v
  · rw [decode_unfinished short]
    trivial
  · obtain ⟨i, head⟩ | ⟨why, head⟩ := decode_whole (Nat.le_of_not_lt short) <;> rw [head] <;> exact nothingLeft

/-! ### The actions from outside -/

/-- Settles O43: the queues of the channel and the environment are no part of the invariant, and power-on is the reset
sequence. -/
theorem hostKeepsTheInvariant : Obligations.HostKeepsTheInvariant := by
  intro h s inv
  cases h with
  | send | takeResponse | answerFlush | raceWrite => exact { inv with }
  | powerOn => exact (inv.consume []).resetSequence.respond

/-! ### Raising a condition -/

/-- A condition's code is the place of its flag in STATUS (R28, R210). -/
theorem getLsbD_status_code (e : ErrorCond) (s : State) : (status s).getLsbD e.code = e.flag s := by
  obtain ⟨-, -, -, -, -, malformed, incomplete, illegal, seq, config, flush, -⟩ := statusLayout s
  cases e with
  | malformedScanline => exact malformed
  | incompleteFrame => exact incomplete
  | illegalCommand => exact illegal
  | sequenceError => exact seq
  | configMismatch => exact config
  | outputWriteFailure => exact flush

/-- The fatal conditions by name (R30, R210). -/
theorem ErrorCond.fatal_eq (e : ErrorCond) : e.fatal = decide (e = .configMismatch ∨ e = .outputWriteFailure) := by
  cases e <;> rfl

/-- The two frame conditions write LAST_OUTCOME (R210, R216). -/
theorem raise_lastOutcome (e : ErrorCond) (s : State) :
    (raise e s).lastOutcome
      = if e = .incompleteFrame then .dropped else if e = .outputWriteFailure then .none else s.lastOutcome := by
  cases e <;> rfl

/-- Settles O14: the bit of a code is its flag, and raising a condition sets that flag alone. -/
theorem raisedErrorSetsItsStatusBit : Obligations.RaisedErrorSetsItsStatusBit := by
  intro e s
  refine ⟨?_, fun f other => ?_, ?_, raise_lastOutcome e s, ?_⟩
  · simp [getLsbD_status_code, raise_flag]
  · simp [getLsbD_status_code, raise_flag, other]
  · rw [raise_halted, e.fatal_eq]
  · cases e <;> rfl

/-! ### One condition per command -/

/-- Of the flags that were clear in `s`, those set in `t` are of one condition, or there are none. -/
def RaisesAtMostOne (s t : State) : Prop :=
  ∃ raised : Option ErrorCond, ∀ e : ErrorCond, e.flag s = false → e.flag t = true → raised = some e

theorem raisesAtMostOne_of_raised {s t : State} {c : ErrorCond}
    (flags : ∀ e : ErrorCond, e.flag t = (decide (e = c) || e.flag s)) : RaisesAtMostOne s t :=
  ⟨some c, fun e before after => by simpa [flags, before, eq_comm] using after⟩

/-- An effect raises no condition or one (R217). -/
theorem Effect.raisesAtMostOne {i : Instr} {s u : State} (h : Effect i s u) : RaisesAtMostOne s u := by
  cases h with
  | mismatch | malformed => exact raisesAtMostOne_of_raised fun e => raise_flag _ e s
  | incomplete => exact raisesAtMostOne_of_raised fun e => by rw [flag_clearRows, raise_flag]
  | flushFailure => exact raisesAtMostOne_of_raised (c := .outputWriteFailure) fun e => by simp
  | _ => exact ⟨none, fun e before after => by simp [before] at after⟩

/-- A step raises no condition or one: IllegalCommand, SequenceError, or that of the command's effect (R217). -/
theorem step_raisesAtMostOne {s t : State} (run : step s = .next t) : RaisesAtMostOne s t := by
  rcases step_next_cases run with ⟨_, rfl⟩ | ⟨why, rest, _, rfl⟩ | ⟨i, rest, _, run⟩
  · exact ⟨none, fun e before after => by simp [before] at after⟩
  · exact raisesAtMostOne_of_raised fun e => by rw [illegalCommand, flag_respond, raise_flag, flag_consume]
  · rcases exec_next_cases run with ⟨_, rfl⟩ | ⟨_, u, effect, rfl⟩
    · exact raisesAtMostOne_of_raised fun e => by rw [refuse, flag_respond, raise_flag, flag_consume]
    · simpa [RaisesAtMostOne] using effect.raisesAtMostOne

/-- Settles O15: both conditions are the one the step raises. -/
theorem atMostOneErrorPerCommand : Obligations.AtMostOneErrorPerCommand := by
  intro s t e f run eBefore eAfter fBefore fAfter
  obtain ⟨raised, unique⟩ := step_raisesAtMostOne run
  exact Option.some.inj ((unique e eBefore eAfter).symm.trans (unique f fBefore fAfter))

/-! ### Refused commands -/

/-- No effect raises SequenceError (R214). -/
theorem Effect.errSeq_of_errSeq {i : Instr} {s u : State} (h : Effect i s u) (after : u.errSeq = true) :
    s.errSeq = true := by
  cases h with
  | clearErrors | reset => simp at after
  | _ => simpa using after

/-- Settles O16: outside the states of the table the block refuses, and in them the command's effect runs. -/
theorem refusedCommandsSetErrSeqOnly : Obligations.RefusedCommandsSetErrSeqOnly := by
  refine ⟨fun S D size fill s barred => exec_refused (Bool.eq_false_iff.2 fun accepted => ?_),
    fun row payload s barred => exec_refused (Bool.eq_false_iff.2 fun accepted => ?_),
    fun k n s barred => exec_refused (Bool.eq_false_iff.2 fun accepted => ?_), fun i s t accepted run after => ?_⟩
  · simp [accepts_config_iff.1 accepted] at barred
  · simp [accepts_writeScanline_iff.1 accepted] at barred
  · simp [accepts_frameComplete_iff.1 accepted] at barred
  · rcases exec_next_cases run with ⟨refused, _⟩ | ⟨_, u, effect, rfl⟩
    · simp [accepted] at refused
    · exact effect.errSeq_of_errSeq (by simpa using after)

end Machine

end Sys2Proof
end

section
/-! PROOFS. Power-on and the bytes of OUT that another agent writes during a flush: the statements of
70_reset_and_hazards.md. -/

namespace Sys2Proof.Machine

/-! ### Racing writes -/

/-- The copy of a flush puts the DPB byte at every address of the surface (R180). -/
theorem read?_copiedOut {s : State} {a : Nat} (inside : a < s.cfgBufSize.toNat) :
    (copiedOut s).read? a = some (dpbByte s a) := by
  rw [copiedOut, Memory.read?_writeRange, if_pos (by omega), Nat.sub_zero]

/-- Settles O37: the racing writes leave the copied byte or put one of their own values there. -/
theorem racingWriteEndsWithEitherValue : Obligations.RacingWriteEndsWithEitherValue := by
  intro s a inside
  simp only [outByte, flushDone_out]
  rcases read?_landRivals s.draws s.cfgBufSize.toNat s.rivals 0 (copiedOut s) a with kept | ⟨_, v, raced, landed⟩
  · left
    rw [kept, read?_copiedOut inside, Option.getD_some]
  · right
    exact ⟨v, raced, by rw [landed, Option.getD_some]⟩

/-! ### Power-on -/

/-- Power-on is the reset sequence with its response, on an emptied channel (R240, R242). -/
theorem hostAct_powerOn (s : State) : hostAct .powerOn s = consume [] (respond (resetSequence s)) := by
  rw [hostAct, respond_resetSequence, respond_resetSequence]
  rfl

/-- Words sent one after the other stand on the channel in their order, behind what was there (R50, R81). -/
theorem foldl_send (ws : List Word) (s : State) :
    ws.foldl (fun s w => hostAct (.send w) s) s = consume (s.inbox ++ ws) s := by
  induction ws generalizing s with
  | nil => rw [List.foldl_nil, List.append_nil]; rfl
  | cons w ws ih =>
    rw [List.foldl_cons, ih, hostAct, List.append_assoc, List.singleton_append]
    rfl

/-- After power-on the channel holds the words sent since, and nothing else (R242). -/
theorem foldl_send_powerOn (ws : List Word) (s : State) :
    ws.foldl (fun s w => hostAct (.send w) s) (hostAct .powerOn s) = consume ws (hostAct .powerOn s) := by
  rw [foldl_send, hostAct_powerOn, consume_inbox, List.nil_append]

/-- Settles O23: power-on is RESET but for the channel, and the words sent next are what the step decodes. -/
theorem powerOnRunsTheResetSequence : Obligations.PowerOnRunsTheResetSequence := by
  refine ⟨fun s => ⟨_, exec_reset s, hostAct_powerOn s⟩, fun s ws => ?_⟩
  rw [foldl_send_powerOn]
  exact ⟨rfl, fun i rest head => step_of_decode (s := consume ws (hostAct .powerOn s)) head⟩

end Sys2Proof.Machine
end
